-- ==== Sys2Proof/Word.lean ====
section
/-! DEFINITION. The byte: the one machine word of the request interface (30_encoding.md R70: a header byte, and
payloads and responses that are byte sequences). Durations and instants are natural numbers. -/

namespace Sys2Proof

/-- A header byte, or one byte of a payload or of a response. Bit 0 is the least significant bit (R8). -/
abbrev Byte := BitVec 8

end Sys2Proof
end

