-- ==== Sys2Proof/Types.lean ====
section
/-! DEFINITION. The types of the block (00_scope.md R9; 10_state.md R20): symbols, flags, levels, repeat modes,
durations and statuses, each a fixed set of names. What is computed from them stands under Machine/. -/

namespace Sys2Proof

/-- `Sym`, a tri-state symbol: `0`, `1`, or `f` ("floating") (R9, R13). -/
inductive Sym where
  | s0 | s1 | sf
  deriving DecidableEq, Repr, Inhabited

/-- `Flag`, a transition flag: 0 means narrow and 1 means wide (R9, R103). -/
inductive Flag where
  | narrow | wide
  deriving DecidableEq, Repr, Inhabited

/-- `Level`, the level of the output line: 0 is low and 1 is high (R9, R32). -/
inductive Level where
  | low | high
  deriving DecidableEq, Repr, Inhabited

/-- `Mode`, the repeat mode of a session: SINGLE or CONT (R9, R29). -/
inductive Mode where
  | single | cont
  deriving DecidableEq, Repr, Inhabited

/-- The three durations a timer is armed with: `1u`, `3u`, `30u` (R20, R32, R103). -/
inductive Dur where
  | u1 | u3 | u30
  deriving DecidableEq, Repr, Inhabited

/-- `Status`, the outcome of a host request (R9, R80). -/
inductive Status where
  | ok | invalidArgument | busy
  deriving DecidableEq, Repr, Inhabited

/-- The agent that issues a step (00_scope.md R12, 60_exceptions.md R190). -/
inductive Agent where
  | host | timer | platform
  deriving DecidableEq, Repr, Inhabited

end Sys2Proof
end

