-- ==== Sys2Proof/Config.lean ====
section
/-! DEFINITION. The parameters of 00_scope.md R6 and the free values of 10_state.md R37.

The fixed sizes of R6 (10, 2 and 12 symbols, 4 flags a symbol, 49 flags, 50 positions) stand as numerals in the types
of Machine/State.lean and Machine/Encoder.lean; the two multipliers are constants here. The OPEN ones are two records,
`Params` for the block and `Timing` for its timed refinement: "A parameter marked OPEN is an argument of the model. The model must be stated for every legal value of an
OPEN parameter" (R6). State carries `Params` and the timed state carries `Timing`, and no step writes either, so a
statement about every state is a statement about every value (log 3). The opaque
constants have no body: nothing can be proved about which value they are. -/

namespace Sys2Proof.Config

/-- `WIDE_MULT` (R6). -/
abbrev wideMult : Nat := 3
/-- `SYNC_MULT` (R6). -/
abbrev syncMult : Nat := 30

end Sys2Proof.Config

namespace Sys2Proof

/-- The OPEN parameters of R6 that the block itself reads. `FRAMING` is not here: the model works on the pair of header
and payload (R70). -/
structure Params where
  /-- `N_SINGLE`, the passes of a single frame. -/
  nSingle : Nat
  /-- `REM_W`, the width of the repeat counter. -/
  remW : Nat
  /-- `INIT_ADDRESS`. -/
  initAddress : Vector Sym 10
  /-- `INIT_COMMAND`. -/
  initCommand : Vector Sym 2
  deriving DecidableEq, Repr

/-- The legal values of R6: `N_SINGLE >= 1` and `2^REM_W > N_SINGLE`. -/
abbrev Params.Legal (p : Params) : Prop := 1 ≤ p.nSingle ∧ p.nSingle < 2 ^ p.remW

/-- The OPEN parameters of R6 that are durations, over a type of time. Only the timed refinement reads them ("No rule of
the model depends on the value of `T_NARROW`", R7; U12, U16), so they stand in its state (Machine/Timed.lean) and not in
the block's. Every statement takes them over the non-negative reals, so over all values of R6 (log 14). -/
structure Timing (τ : Type) where
  /-- `T_NARROW`. -/
  tNarrow : τ
  /-- `L_STEP`. -/
  lStep : τ
  deriving DecidableEq, Repr

/-- The legal values of R6: `T_NARROW > 0` and `0 <= L_STEP < T_NARROW`, over a type of time with no value below 0. -/
abbrev Timing.Legal {τ : Type} [Zero τ] [LT τ] (k : Timing τ) : Prop := 0 < k.tNarrow ∧ k.lStep < k.tNarrow

end Sys2Proof

namespace Sys2Proof.Config

/-- `INIT_ADDRESS` of the machine at reset: any 10 symbols (R6, U14; log 3). -/
opaque initAddress : Vector Sym 10
/-- `INIT_COMMAND` of the machine at reset: any 2 symbols (R6, U14; log 3). -/
opaque initCommand : Vector Sym 2
/-- `N_SINGLE - 1` of the machine at reset: any natural number (R6, U13; log 3). -/
opaque nSinglePred : Nat
/-- The bits of `REM_W` beyond those `N_SINGLE` needs, at reset: any natural number (R6, U15; log 3). -/
opaque remWSpare : Nat
/-- `N_SINGLE` of the machine at reset. -/
def nSingle : Nat := nSinglePred + 1

/-- The parameters of the machine at reset: an unknown legal value of each. -/
def params : Params where
  nSingle := nSingle
  remW := Nat.log2 nSingle + 1 + remWSpare
  initAddress := initAddress
  initCommand := initCommand

/-- Free value: `BITS` after the reset numbered `n` ("unspecified (any value)", R210, U7; log 4). -/
opaque freeBits : Nat → Vector Flag 49
/-- Free value: `TMR_DUR` after the reset numbered `n` ("unspecified (any value)", R210, U8; log 4). -/
opaque freeDur : Nat → Dur

end Sys2Proof.Config
end

