-- ==== Sys2Proof/Syntax.lean ====
section
/-! DEFINITION. Requests, responses, inputs and instructions (30_encoding.md R70, R71, R83). `Instr` has one
constructor per row of spec/opcode_table.json. -/

namespace Sys2Proof

/-- The three kinds of payload (R70): `NONE`, `STR` (a byte sequence of any length) and `INT` (any integer). -/
inductive Payload where
  | none
  | str (bytes : List Byte)
  | int (v : Int)
  deriving DecidableEq, Repr

/-- The kind of a payload, which the header byte fixes (R70). -/
inductive PayloadKind where
  | none | str | int
  deriving DecidableEq, Repr

/-- A request `(op, payload)`, or an internal event in the same form (R70, R71). -/
structure Request where
  op : Byte
  payload : Payload
  deriving DecidableEq, Repr

/-- A response `(status, data)`: `data` is a byte sequence for a successful get, and empty otherwise (R70). -/
structure Response where
  status : Status
  data : List Byte
  deriving DecidableEq, Repr

/-- What the environment does next (log 1). -/
inductive Input where
  /-- an agent issues a request or an internal event (R12, R71) -/
  | issue (agent : Agent) (request : Request)
  /-- the platform tears the block down (R213) -/
  | teardown
  deriving DecidableEq, Repr

/-- The operations, one constructor per row of the opcode table. -/
inductive Instr where
  /-- `0x00` (R121) -/
  | getAddress
  /-- `0x01` (R122) -/
  | setAddress (p : List Byte)
  /-- `0x02` (R123) -/
  | getCommand
  /-- `0x03` (R124) -/
  | setCommand (p : List Byte)
  /-- `0x04` (R125) -/
  | getCodeword
  /-- `0x05` (R126) -/
  | setCodeword (p : List Byte)
  /-- `0x07` (R140) -/
  | trigger (v : Int)
  /-- the pseudo-instruction `TRIGGER 0` (R83, R141) -/
  | stop
  /-- the pseudo-instruction `TRIGGER 1` (R83, R143) -/
  | send
  /-- the pseudo-instruction `TRIGGER 2` (R83, R144) -/
  | sendCont
  /-- `0x08`, a step of the timer agent (R161) -/
  | timerExpire
  /-- `0x09`, a step of the platform agent (R210) -/
  | reset
  /-- `0x06`, reserved (R73) -/
  | reserved06
  /-- `0000101x`, reserved (R73); `x` is the free bit of the header -/
  | reserved0A0B (x : BitVec 1)
  /-- `000011xx`, reserved (R73) -/
  | reserved0C0F (x : BitVec 2)
  /-- `0001xxxx`, reserved (R73) -/
  | reserved101F (x : BitVec 4)
  /-- `001xxxxx`, reserved (R73) -/
  | reserved203F (x : BitVec 5)
  /-- `01xxxxxx`, reserved (R73) -/
  | reserved407F (x : BitVec 6)
  /-- `1xxxxxxx`, reserved (R73) -/
  | reserved80FF (x : BitVec 7)
  deriving DecidableEq, Repr

end Sys2Proof
end

