-- ==== Sys2Proof/WellFormed.lean ====
section
/-! DEFINITION. Which terms stand for themselves. Every operand of an `Instr` is legal by its type: a `STR` payload
has any length and an `INT` payload any value (30_encoding.md R70, R75, R79). What is checked: an instruction is its
own decoding and not the assembler's second name of one (R83), and a payload has the kind its header fixes (R70). -/

namespace Sys2Proof

/-- The instruction is one the decoder of R74 answers: it is not `STOP`, `SEND` or `SEND_CONT`, which "expand to one
request each" (R83; log 10). -/
def Instr.wf (i : Instr) : Bool :=
  match i with
  | .stop => false
  | .send => false
  | .sendCont => false
  | _ => true

/-- The kind of a payload (R70). -/
def Payload.kind (p : Payload) : PayloadKind :=
  match p with
  | .none => .none
  | .str _ => .str
  | .int _ => .int

/-- The operation of a header other than the reserved ones, with its payload kind, as R71's table lists them. -/
def headerKind (op : Byte) : Option PayloadKind :=
  match op with
  | 0x00#8 => some .none
  | 0x01#8 => some .str
  | 0x02#8 => some .none
  | 0x03#8 => some .str
  | 0x04#8 => some .none
  | 0x05#8 => some .str
  | 0x07#8 => some .int
  | 0x08#8 => some .none
  | 0x09#8 => some .none
  | _ => Option.none

/-- The payload has the kind that the header fixes ("`payload` has one of three kinds, and `op` fixes which", R70). A
reserved header fixes no kind. -/
def Request.wf (r : Request) : Bool :=
  match headerKind r.op with
  | some k => k == r.payload.kind
  | Option.none => true

end Sys2Proof
end

