-- ==== Sys2Proof/Decode.lean ====
section
/-! DEFINITION. Decoding and encoding of requests (30_encoding.md R70 to R74, R83), the issuer of each operation
(R71, R72) and the opcode map as data. Decoding is total: it answers an instruction, or a rejection by name. -/

namespace Sys2Proof

/-- Why a pair of header and payload decodes to no instruction. -/
inductive DecodeError where
  /-- the header fixes another kind of payload (R70; log 7) -/
  | payloadKind (op : Byte)
  deriving DecidableEq, Repr

/-- `Z = op[7:4]` (R71). -/
def opZ (op : Byte) : BitVec 4 := op.extractLsb' 4 4
/-- `I = op[3]` (R71). -/
def opI (op : Byte) : Bool := op.getLsbD 3
/-- `P = op[2:1]` (R71). -/
def opP (op : Byte) : BitVec 2 := op.extractLsb' 1 2
/-- `W = op[0]` (R71). -/
def opW (op : Byte) : Bool := op.getLsbD 0
/-- `E = op[2:0]` (R71). -/
def opE (op : Byte) : BitVec 3 := op.extractLsb' 0 3

/-- The three sets, the operations with a `STR` payload (R71). -/
inductive SetOp where
  | address | command | codeword
  deriving DecidableEq, Repr

/-- What a header byte selects: an operation without payload, one of the sets, the trigger, or a reserved row. -/
inductive HeaderOp where
  | bare (i : Instr)
  | set (f : SetOp)
  | trigger
  | reserved (i : Instr)
  deriving DecidableEq, Repr

/-- The headers with `Z != 0`, all reserved (R73), by their rows of the opcode table. -/
def decodeReservedZ (op : Byte) : HeaderOp :=
  if op.getLsbD 7 then .reserved (.reserved80FF (op.extractLsb' 0 7))
  else if op.getLsbD 6 then .reserved (.reserved407F (op.extractLsb' 0 6))
  else if op.getLsbD 5 then .reserved (.reserved203F (op.extractLsb' 0 5))
  else .reserved (.reserved101F (op.extractLsb' 0 4))

/-- The host headers, `Z = 0` and `I = 0` (R74). -/
def decodeHost (op : Byte) : HeaderOp :=
  match (opP op).toNat, opW op with
  | 0, false => .bare .getAddress
  | 0, true => .set .address
  | 1, false => .bare .getCommand
  | 1, true => .set .command
  | 2, false => .bare .getCodeword
  | 2, true => .set .codeword
  | _, false => .reserved .reserved06
  | _, true => .trigger

/-- The internal headers, `Z = 0` and `I = 1` (R74). -/
def decodeEvent (op : Byte) : HeaderOp :=
  match (opE op).toNat with
  | 0 => .bare .timerExpire
  | 1 => .bare .reset
  | 2 => .reserved (.reserved0A0B (op.extractLsb' 0 1))
  | 3 => .reserved (.reserved0A0B (op.extractLsb' 0 1))
  | _ => .reserved (.reserved0C0F (op.extractLsb' 0 2))

/-- "Decoding is a total function of the header byte": "A decoder works from `Z`, then `I`, then `P` and `W` or `E`"
(R74). -/
def decodeHeader (op : Byte) : HeaderOp :=
  if opZ op ≠ 0 then decodeReservedZ op
  else if opI op then decodeEvent op
  else decodeHost op

/-- A set with its payload (R81). -/
def SetOp.withPayload (f : SetOp) (p : List Byte) : Instr :=
  match f with
  | .address => .setAddress p
  | .command => .setCommand p
  | .codeword => .setCodeword p

/-- The instruction of a header operation and a payload, whose kind must be the header's (R70; log 7). A reserved header
is its reserved row whatever payload comes with it (R73; log 9). -/
def attachPayload (h : HeaderOp) (r : Request) : Except DecodeError Instr :=
  match h, r.payload with
  | .bare i, .none => .ok i
  | .set f, .str p => .ok (f.withPayload p)
  | .trigger, .int v => .ok (.trigger v)
  | .reserved i, _ => .ok i
  | _, _ => .error (.payloadKind r.op)

/-- The instruction a request is (R70, R74). -/
def decode (r : Request) : Except DecodeError Instr := attachPayload (decodeHeader r.op) r

/-- The request, or event, that an instruction stands for (R71, R83). -/
def encode (i : Instr) : Request :=
  match i with
  | .getAddress => ⟨0x00, .none⟩
  | .setAddress p => ⟨0x01, .str p⟩
  | .getCommand => ⟨0x02, .none⟩
  | .setCommand p => ⟨0x03, .str p⟩
  | .getCodeword => ⟨0x04, .none⟩
  | .setCodeword p => ⟨0x05, .str p⟩
  | .trigger v => ⟨0x07, .int v⟩
  | .stop => ⟨0x07, .int 0⟩
  | .send => ⟨0x07, .int 1⟩
  | .sendCont => ⟨0x07, .int 2⟩
  | .timerExpire => ⟨0x08, .none⟩
  | .reset => ⟨0x09, .none⟩
  | .reserved06 => ⟨0x06, .none⟩
  | .reserved0A0B x => ⟨0b0000101#7 ++ x, .none⟩
  | .reserved0C0F x => ⟨0b000011#6 ++ x, .none⟩
  | .reserved101F x => ⟨0b0001#4 ++ x, .none⟩
  | .reserved203F x => ⟨0b001#3 ++ x, .none⟩
  | .reserved407F x => ⟨0b01#2 ++ x, .none⟩
  | .reserved80FF x => ⟨0b1#1 ++ x, .none⟩

/-- The agent that issues an operation (R71, column "issued by"; R72). A reserved header is no agent's operation; a
host may send its byte, and is refused (R73). -/
def Instr.issuer (i : Instr) : Agent :=
  match i with
  | .timerExpire => .timer
  | .reset => .platform
  | _ => .host

/-- The instruction is a request of the host (R70, R190), not a step of the timer or of the platform. -/
def Instr.isHost (i : Instr) : Bool := i.issuer == .host

/-- The mnemonic of an instruction, as the opcode table spells it. -/
def Instr.mnemonic (i : Instr) : String :=
  match i with
  | .getAddress => "GET_ADDRESS"
  | .setAddress _ => "SET_ADDRESS"
  | .getCommand => "GET_COMMAND"
  | .setCommand _ => "SET_COMMAND"
  | .getCodeword => "GET_CODEWORD"
  | .setCodeword _ => "SET_CODEWORD"
  | .trigger _ => "TRIGGER"
  | .stop => "STOP"
  | .send => "SEND"
  | .sendCont => "SEND_CONT"
  | .timerExpire => "TIMER_EXPIRE"
  | .reset => "RESET"
  | .reserved06 => "RESERVED_06"
  | .reserved0A0B _ => "RESERVED_0A_0B"
  | .reserved0C0F _ => "RESERVED_0C_0F"
  | .reserved101F _ => "RESERVED_10_1F"
  | .reserved203F _ => "RESERVED_20_3F"
  | .reserved407F _ => "RESERVED_40_7F"
  | .reserved80FF _ => "RESERVED_80_FF"

/-- One row of the opcode table: a header `op` is the row's when `op AND mask = match`. -/
structure OpcodeRow where
  mnemonic : String
  pattern : Byte
  mask : Byte
  deriving DecidableEq, Repr

/-- spec/opcode_table.json, row by row, less the three rows that are other names of `TRIGGER` (R83). -/
def opcodeTable : List OpcodeRow :=
  [⟨"GET_ADDRESS", 0x00, 0xFF⟩, ⟨"SET_ADDRESS", 0x01, 0xFF⟩, ⟨"GET_COMMAND", 0x02, 0xFF⟩,
   ⟨"SET_COMMAND", 0x03, 0xFF⟩, ⟨"GET_CODEWORD", 0x04, 0xFF⟩, ⟨"SET_CODEWORD", 0x05, 0xFF⟩,
   ⟨"TRIGGER", 0x07, 0xFF⟩, ⟨"TIMER_EXPIRE", 0x08, 0xFF⟩, ⟨"RESET", 0x09, 0xFF⟩] ++
  [⟨"RESERVED_06", 0x06, 0xFF⟩, ⟨"RESERVED_0A_0B", 0x0A, 0xFE⟩, ⟨"RESERVED_0C_0F", 0x0C, 0xFC⟩,
   ⟨"RESERVED_10_1F", 0x10, 0xF0⟩, ⟨"RESERVED_20_3F", 0x20, 0xE0⟩, ⟨"RESERVED_40_7F", 0x40, 0xC0⟩,
   ⟨"RESERVED_80_FF", 0x80, 0x80⟩]

/-- The header is one of the row's. -/
def OpcodeRow.covers (row : OpcodeRow) (op : Byte) : Bool := op &&& row.mask == row.pattern

/-- The payload whose every bit is zero, of the kind the header fixes: no payload, the empty string, or the integer 0
(log 6). -/
def zeroPayload (op : Byte) : Payload :=
  match headerKind op with
  | some .str => .str []
  | some .int => .int 0
  | some .none => .none
  | Option.none => .none

/-- The request whose header is the low byte of `w`, with the zero payload. -/
def requestOfWord (w : Nat) : Request :=
  let op : Byte := BitVec.ofNat 8 w
  ⟨op, zeroPayload op⟩

/-- What the decoder reads from the header `w` of a row of the opcode table, each of which has 8 bits (log 6). -/
def decodeTableWord (nbits w : Nat) : Option Instr :=
  if nbits = 8 ∧ w < 256 then (decode (requestOfWord w)).toOption else none

end Sys2Proof
end

