-- ==== Sys2Proof/Machine/State.lean ====
section
/-! DEFINITION. The state of the block (10_state.md R20), with the model's own fields, the reasons a step stops, and
the state after reset (R37). -/

namespace Sys2Proof.Machine

/-- The state. The first ten fields are "exactly the following tuple" of R20; the last four are the model's own, and
R21 puts what they hold outside the block's state. -/
structure State where
  /-- `ADDR`, the stored address field (R22). -/
  addr : Vector Sym 10
  /-- `CMD`, the stored command field (R23). -/
  cmd : Vector Sym 2
  /-- `BITS`, the bitstring buffer (R27). -/
  bits : Vector Flag 49
  /-- `BUSY`, the busy guard (R28). -/
  busy : Bool
  /-- `MODE`, the repeat mode (R29). -/
  mode : Mode
  /-- `REM`, the passes that remain in single-frame mode (R30). -/
  rem : Nat
  /-- `POS`, the position, 0 to 49 between steps (R31). -/
  pos : Fin 50
  /-- `LINE`, the level driven on the output line (R32). -/
  line : Level
  /-- `TMR_ARMED`, an expiry is pending (R32). -/
  tmrArmed : Bool
  /-- `TMR_DUR`, the duration the pending expiry was armed with (R32). -/
  tmrDur : Dur
  /-- The model's own: the OPEN parameters of R6, which no step writes (log 3). -/
  params : Params
  /-- The model's own: the inputs still to come, first the next (log 1). -/
  inputs : List Input
  /-- The model's own: the response of the last request step, none after a step that answers none (log 2). -/
  response : Option Response
  /-- The model's own: the index of the next unused free value (log 4). -/
  freeIdx : Nat
  deriving DecidableEq, Repr

/-- The reasons the machine faults: none. "The block has no fault state" (93_implementation_defined.md), "Trap entry
and trap return do not exist" (R184). -/
inductive Fault where
  deriving DecidableEq, Repr

/-- The reasons a run is refused (R182: "it marks the whole run refused and gives it no next state"). Each is safe: a
refused run proves nothing. -/
inductive Refusal where
  /-- No meaning for the instruction; no arm raises it. Safe. -/
  | notModelled (mnemonic : String)
  /-- A reserved header (R73), raised by the meanings of the reserved rows. Safe. -/
  | reservedHeader (op : Byte)
  /-- A header issued by an agent that may not issue it: `0x08` or `0x09` by the host (R72), and the other crossed
  cases (log 8). Raised by the fetch. Safe. -/
  | wrongIssuer (agent : Agent) (op : Byte)
  /-- A payload of another kind than the header fixes (R70; log 7). Raised by the fetch. Safe. -/
  | payloadKind (op : Byte)
  /-- An expiry while `TMR_ARMED = 0`: "the timer agent has no step" (R160; log 5). Raised by TIMER_EXPIRE. Safe. -/
  | timerNotArmed
  /-- A teardown while `BUSY = 1`: "A model refuses a teardown while `BUSY = 1`" (R213). Raised by the fetch. Safe. -/
  | teardownWhileBusy
  /-- A teardown while Idle, which "this spec does not model" (R213; log 13). Raised by the fetch. Safe. -/
  | teardownOutOfScope
  deriving DecidableEq, Repr

/-- The state after reset (R37). `BITS` and `TMR_DUR` are "unspecified": free values (log 4). The parameters are an
unknown legal value (log 3); nothing is queued and nothing has been answered (log 1, log 2). -/
def State.reset : State where
  addr := Config.params.initAddress
  cmd := Config.params.initCommand
  bits := Config.freeBits 0
  busy := false
  mode := .single
  rem := 0
  pos := 0
  line := .low
  tmrArmed := false
  tmrDur := Config.freeDur 0
  params := Config.params
  inputs := []
  response := none
  freeIdx := 1

end Sys2Proof.Machine
end

