-- ==== Sys2Proof/Machine/Operands.lean ====
section
/-! DEFINITION. The operand forms: the alphabets of the sets and of the gets (30_encoding.md R75 to R78), the two
validation predicates (41_property_requests.md R120), and the decoding of a whole `STR` payload into a field. -/

namespace Sys2Proof.Machine

/-- `tri(b)`: the symbol of a payload byte of `SET_ADDRESS` and `SET_CODEWORD`; none is illegal (R76; ASCII, log 17). -/
def tri (b : Byte) : Option Sym :=
  match b with
  | 0x30#8 => some .s0
  | 0x31#8 => some .s1
  | 0x66#8 => some .sf
  | 0x46#8 => some .sf
  | _ => none

/-- `bin(b)`: the symbol of a payload byte of `SET_COMMAND`, which refuses the floating symbol (R77). -/
def bin (b : Byte) : Option Sym :=
  match b with
  | 0x30#8 => some .s0
  | 0x31#8 => some .s1
  | _ => none

/-- `chr(s)`: the byte a get answers for a symbol, `f` in lower case (R78). -/
def chr (s : Sym) : Byte :=
  match s with
  | .s0 => 0x30
  | .s1 => 0x31
  | .sf => 0x66

/-- `legal_tri(b)` (R76). -/
def legalTri (b : Byte) : Bool := (tri b).isSome

/-- `legal_bin(b)` (R77). -/
def legalBin (b : Byte) : Bool := (bin b).isSome

/-- `valid_tri(p, L)` (R120). -/
def validTri (p : List Byte) (len : Nat) : Bool := p.length == len && p.all legalTri

/-- `valid_bin(p, L)` (R120). -/
def validBin (p : List Byte) (len : Nat) : Bool := p.length == len && p.all legalBin

/-- The symbols of a payload, or none when some byte is illegal; byte `i` carries symbol `i` (20_memory.md R52). -/
def decodeSyms (alphabet : Byte → Option Sym) : List Byte → Option (List Sym)
  | [] => some []
  | b :: bs =>
    match alphabet b, decodeSyms alphabet bs with
    | some x, some xs => some (x :: xs)
    | _, _ => none

/-- The field a payload carries, or none when its length is not the field's or some byte is illegal (R75, R120). -/
def decodeField (alphabet : Byte → Option Sym) (len : Nat) (p : List Byte) : Option (Vector Sym len) :=
  match decodeSyms alphabet p with
  | some xs => if h : xs.length = len then some ⟨⟨xs⟩, h⟩ else none
  | none => none

/-- What a get answers for a field: one byte per symbol, in order, no terminator (R78). -/
def renderField {len : Nat} (field : Vector Sym len) : List Byte := field.toList.map chr

/-- The address part of a codeword, `CW[i] = ADDR[i]` for `i` from 0 to 9 (R23, R126). -/
def addressOf (cw : Vector Sym 12) : Vector Sym 10 :=
  Vector.ofFn fun i : Fin 10 => cw[i.val]

/-- The command part of a codeword, `CW[10 + j] = CMD[j]` (R23, R126). -/
def commandOf (cw : Vector Sym 12) : Vector Sym 2 :=
  Vector.ofFn fun j : Fin 2 => cw[10 + j.val]

/-- The codeword `CW = ADDR ++ CMD`: `CW[i] = ADDR[i]` for `i` from 0 to 9, and `CW[10 + j] = CMD[j]` (R23). -/
def codewordOf (addr : Vector Sym 10) (cmd : Vector Sym 2) : Vector Sym 12 :=
  Vector.ofFn fun i : Fin 12 => if h : i.val < 10 then addr[i.val] else cmd[i.val - 10]

/-- The stored codeword (R23). -/
def State.codeword (s : State) : Vector Sym 12 := codewordOf s.addr s.cmd

end Sys2Proof.Machine
end

