-- ==== Sys2Proof/Machine/Encoder.lean ====
section
/-! DEFINITION. The tri-state encoder and the schedule of a pass (40_encoder.md R100 to R108). Pure functions: "The
encoder has no state and no side effect" (R108). -/

namespace Sys2Proof.Machine

/-- `SYMFLAGS(s)[0..3]`, the table of R100. -/
def symFlags (s : Sym) : List Flag :=
  match s with
  | .s0 => [.narrow, .wide, .narrow, .wide]
  | .s1 => [.wide, .narrow, .wide, .narrow]
  | .sf => [.narrow, .wide, .wide, .narrow]

/-- Each symbol "expands to four flags" (R100). -/
theorem symFlags_length (s : Sym) : (symFlags s).length = 4 := by cases s <;> rfl

/-- The flags of a sequence of symbols, "left to right" (R101). -/
def flagsOf (syms : List Sym) : List Flag := syms.flatMap symFlags

/-- The flags of `n` symbols are `4 n`. -/
theorem flagsOf_length (syms : List Sym) : (flagsOf syms).length = 4 * syms.length := by
  induction syms with
  | nil => rfl
  | cons x xs ih => simp only [flagsOf, List.flatMap_cons, List.length_append, symFlags_length, List.length_cons] at *; omega

/-- `ENCODE(cw)` (R101): the four flags of each symbol in order, then the flag 48, which is 0 (R102). -/
def encodeCodeword (cw : Vector Sym 12) : Vector Flag 49 :=
  ⟨⟨flagsOf cw.toList ++ [.narrow]⟩, by simp [flagsOf_length]⟩

/-- `DUR(flag)`: narrow is `1u` and wide is `3u` (R103). -/
def flagDur (f : Flag) : Dur :=
  match f with
  | .narrow => .u1
  | .wide => .u3

/-- A duration in units `u = T_NARROW` (R7, R103). -/
def durUnits (d : Dur) : Nat :=
  match d with
  | .u1 => 1
  | .u3 => Config.wideMult
  | .u30 => Config.syncMult

/-- `SYNC` (R103). -/
def syncDur : Dur := .u30

/-- `interval(p)`: `DUR(BITS[p])` for `p` up to 48, and `SYNC` for 49 (R104). -/
def interval (bits : Vector Flag 49) (p : Fin 50) : Dur :=
  if h : p.val < 49 then flagDur bits[p.val] else syncDur

/-- The level of the line in interval `p`: high when `p` is even and low when it is odd (R105). -/
def levelAt (p : Nat) : Level := if p % 2 = 0 then .high else .low

/-- `WAVE(cw)`: the 50 pairs of level and duration of one pass (R106). -/
def wave (cw : Vector Sym 12) : List (Level × Dur) :=
  (List.finRange 50).map fun p => (levelAt p.val, interval (encodeCodeword cw) p)

/-- The units a list of level and duration pairs spends at a level (R107: the high and the low time). -/
def unitsAt (l : Level) (w : List (Level × Dur)) : Nat :=
  ((w.filter fun x => x.1 = l).map fun x => durUnits x.2).sum

/-- The units a list of level and duration pairs lasts (R107). -/
def unitsOf (w : List (Level × Dur)) : Nat := (w.map fun x => durUnits x.2).sum

end Sys2Proof.Machine
end

