-- ==== Sys2Proof/Machine/Flags.lean ====
section
/-! DEFINITION. The one status flag of the block, the busy guard `BUSY` (10_state.md R28, 20_memory.md R58 to R62),
and the level of the line. No arithmetic flag exists (R36, 43_timer_expiry.md R169). -/

namespace Sys2Proof.Machine

/-- The guard is held: a session is in flight (R28). -/
def State.guardHeld (s : State) : Bool := s.busy

/-- `BUSY <- 1`, the set of the test-and-set (R58). -/
def State.acquireGuard (s : State) : State := { s with busy := true }

/-- `BUSY <- 0`: "releasing an already-released guard" is a no-op; the guard has no owner (R59). -/
def State.releaseGuard (s : State) : State := { s with busy := false }

/-- `1 - LINE` (43_timer_expiry.md R161, step 1). -/
def flipLevel (l : Level) : Level :=
  match l with
  | .low => .high
  | .high => .low

/-- `LINE <- l` (R32). -/
def State.driveLine (l : Level) (s : State) : State := { s with line := l }

end Sys2Proof.Machine
end

