-- ==== Sys2Proof/Machine/Ops.lean ====
section
/-! DEFINITION. The shared operations of the meanings: responses and errors (00_scope.md R10; 60_exceptions.md R180 to
R184), the timer (R10, R191), the fields, the free values, the set path (41_property_requests.md) and the start and
stop paths (42_trigger_requests.md R141, R142).

The block has no trap: an error is a response that writes no state, and there is no return from one (R181, R184). -/

namespace Sys2Proof.Machine

/-- `respond(st, data)`: a host request step ends in exactly one response (R10, R70). -/
def State.respond (st : Status) (data : List Byte) (s : State) : State :=
  { s with response := some ⟨st, data⟩ }

/-- A step of the timer or of the platform returns no response (R70). -/
def State.silent (s : State) : State := { s with response := none }

/-- End a host request with `OK` and no data. -/
def finishOk (s : State) : Host.Outcome State Fault Refusal := .next (s.respond .ok [])

/-- `raise st`: answer the error and end the step "with no state written" (R10, R181). -/
def raise (st : Status) (s : State) : Host.Outcome State Fault Refusal := .next (s.respond st [])

/-- `arm(d)`: `TMR_ARMED <- 1; TMR_DUR <- d` (R10, R32). -/
def State.arm (d : Dur) (s : State) : State := { s with tmrArmed := true, tmrDur := d }

/-- `disarm()`: `TMR_ARMED <- 0`; it "leaves `TMR_DUR` unchanged" (R32). -/
def State.disarm (s : State) : State := { s with tmrArmed := false }

/-- Write the address field (R22). -/
def State.setAddr (v : Vector Sym 10) (s : State) : State := { s with addr := v }

/-- Write the command field (R23). -/
def State.setCmd (v : Vector Sym 2) (s : State) : State := { s with cmd := v }

/-- Write both fields of the codeword in one step (R126). -/
def State.setCodeword (cw : Vector Sym 12) (s : State) : State :=
  (s.setAddr (addressOf cw)).setCmd (commandOf cw)

/-- Write `POS` and `REM`. -/
def State.setCounts (pos : Fin 50) (rem : Nat) (s : State) : State := { s with pos := pos, rem := rem }

/-- The shared path of the three sets (R122, R124, R126): an invalid payload answers `INVALID_ARGUMENT`, whatever the
guard is (R183); then a held guard answers `BUSY`; then the field is written and the answer is `OK`. -/
def setField {α : Type} (field : Option α) (write : α → State → State) (s : State) :
    Host.Outcome State Fault Refusal :=
  match field with
  | none => raise .invalidArgument s
  | some v => if s.guardHeld then raise .busy s else finishOk (write v s)

/-- A get: one byte per symbol, and no side effect (R57, R78). -/
def getField {len : Nat} (field : Vector Sym len) (s : State) : Host.Outcome State Fault Refusal :=
  .next (s.respond .ok (renderField field))

/-- The passes a session is started with: `N_SINGLE` in single-frame mode, and 0 in continuous mode (R30, R142). -/
def startCount (m : Mode) (p : Params) : Nat :=
  match m with
  | .single => p.nSingle
  | .cont => 0

/-- The writes of an accepted start (R142): the bitstring is regenerated, the guard is taken, the line goes high and
the timer is armed for `b[0]`. -/
def State.beginSession (m : Mode) (s : State) : State :=
  let b := encodeCodeword s.codeword
  (((({ s with bits := b, mode := m }).acquireGuard).setCounts 0 (startCount m s.params)).driveLine .high).arm
    (flagDur b[0])

/-- `START(mode)` (R142): the guard is tested and set in the one step (R58). -/
def start (m : Mode) (s : State) : Host.Outcome State Fault Refusal :=
  if s.guardHeld then raise .busy s else finishOk (s.beginSession m)

/-- The writes of a stop (R141): the timer is disarmed, the line is low, the guard is released, `POS` and `REM` are
0. -/
def State.endSession (s : State) : State :=
  ((s.disarm.driveLine .low).releaseGuard).setCounts 0 0

/-- `STOP()` (R141): it "must always succeed". -/
def stopSession (s : State) : Host.Outcome State Fault Refusal := finishOk s.endSession

/-- Take a free value for `BITS` and for `TMR_DUR`, and advance the index (R210: "not written; their values after
reset are unspecified (any value)"; log 4). -/
def State.freshUnspecified (s : State) : State :=
  { s with bits := Config.freeBits s.freeIdx, tmrDur := Config.freeDur s.freeIdx, freeIdx := s.freeIdx + 1 }

end Sys2Proof.Machine
end

