-- ==== Sys2Proof/Machine/Platform.lean ====
section
/-! DEFINITION. The platform's step, `RESET` (70_reset_and_hazards.md R210). -/

namespace Sys2Proof.Machine

/-- The writes of a reset (R210): the codeword is the initial one, the session is gone, the timer is cancelled, and
`BITS` and `TMR_DUR` are unspecified (log 4). -/
def State.resetBlock (s : State) : State :=
  let t := (s.endSession.setAddr s.params.initAddress).setCmd s.params.initCommand
  ({ t with mode := .single }).freshUnspecified

/-- `RESET` (R210): "It may happen in any state, a running session included." It has no response. -/
def execReset (s : State) : Host.Outcome State Fault Refusal := .next s.resetBlock.silent

end Sys2Proof.Machine
end

