-- ==== Sys2Proof/Machine/Property.lean ====
section
/-! DEFINITION. The six property requests (41_property_requests.md R121 to R126). -/

namespace Sys2Proof.Machine

/-- `GET_ADDRESS` (R121): allowed in every state. -/
def execGetAddress (s : State) : Host.Outcome State Fault Refusal := getField s.addr s

/-- `SET_ADDRESS p` (R122). -/
def execSetAddress (p : List Byte) (s : State) : Host.Outcome State Fault Refusal :=
  setField (decodeField tri 10 p) State.setAddr s

/-- `GET_COMMAND` (R123). -/
def execGetCommand (s : State) : Host.Outcome State Fault Refusal := getField s.cmd s

/-- `SET_COMMAND p` (R124): the alphabet without the floating symbol (R77). -/
def execSetCommand (p : List Byte) (s : State) : Host.Outcome State Fault Refusal :=
  setField (decodeField bin 2 p) State.setCmd s

/-- `GET_CODEWORD` (R125). -/
def execGetCodeword (s : State) : Host.Outcome State Fault Refusal := getField s.codeword s

/-- `SET_CODEWORD p` (R126): both fields in one step. -/
def execSetCodeword (p : List Byte) (s : State) : Host.Outcome State Fault Refusal :=
  setField (decodeField tri 12 p) State.setCodeword s

end Sys2Proof.Machine
end

