-- ==== Sys2Proof/Machine/Reserved.lean ====
section
/-! DEFINITION. The reserved rows of the opcode table: "A model refuses a request with a reserved header. It does not
answer `INVALID_ARGUMENT`" (30_encoding.md R73; 60_exceptions.md R182). -/

namespace Sys2Proof.Machine

/-- The refusal of a reserved header (R73, R182). -/
def refuseReserved (op : Byte) (_s : State) : Host.Outcome State Fault Refusal := .refused (.reservedHeader op)

/-- Header `0x06`, a read of the trigger (R73). -/
def execReserved06 (s : State) : Host.Outcome State Fault Refusal := refuseReserved 0x06 s

/-- Headers `0x0A` and `0x0B` (R73). -/
def execReserved0A0B (x : BitVec 1) (s : State) : Host.Outcome State Fault Refusal :=
  refuseReserved (0b0000101#7 ++ x) s

/-- Headers `0x0C` to `0x0F` (R73). -/
def execReserved0C0F (x : BitVec 2) (s : State) : Host.Outcome State Fault Refusal :=
  refuseReserved (0b000011#6 ++ x) s

/-- Headers `0x10` to `0x1F`, with `Z != 0` (R73). -/
def execReserved101F (x : BitVec 4) (s : State) : Host.Outcome State Fault Refusal :=
  refuseReserved (0b0001#4 ++ x) s

/-- Headers `0x20` to `0x3F`, with `Z != 0` (R73). -/
def execReserved203F (x : BitVec 5) (s : State) : Host.Outcome State Fault Refusal :=
  refuseReserved (0b001#3 ++ x) s

/-- Headers `0x40` to `0x7F`, with `Z != 0` (R73). -/
def execReserved407F (x : BitVec 6) (s : State) : Host.Outcome State Fault Refusal :=
  refuseReserved (0b01#2 ++ x) s

/-- Headers `0x80` to `0xFF`, with `Z != 0` (R73). -/
def execReserved80FF (x : BitVec 7) (s : State) : Host.Outcome State Fault Refusal :=
  refuseReserved (0b1#1 ++ x) s

end Sys2Proof.Machine
end

