-- ==== Sys2Proof/Machine/Timer.lean ====
section
/-! DEFINITION. The timer expiry (43_timer_expiry.md R160 to R165), in the order of R161's pseudocode. -/

namespace Sys2Proof.Machine

/-- The next pass begins (R163): `POS` is 0, the line is high, and the timer is armed for `BITS[0]`. -/
def State.repeatPass (rem : Nat) (s : State) : State :=
  ((s.setCounts 0 rem).driveLine .high).arm (flagDur s.bits[0])

/-- Natural completion (R162): the line is low, the guard is released, `POS` and `REM` are 0, and the timer is not
re-armed. -/
def State.completeSession (s : State) : State :=
  ((s.driveLine .low).releaseGuard).setCounts 0 0

/-- The end of a pass (R161, step 3). In continuous mode the count is never decremented. `REM - 1` is computed on an
unsigned counter that is at least 1 (R169; log 11). -/
def State.endPass (s : State) : State :=
  match s.mode with
  | .single => if s.rem - 1 = 0 then s.completeSession else s.repeatPass (s.rem - 1)
  | .cont => s.repeatPass s.rem

/-- The advance to position `q = POS + 1` (R161, steps 3 to 5). -/
def State.advance (s : State) : State :=
  if h : 49 < s.pos.val + 1 then s.endPass
  else if h' : s.pos.val + 1 = 49 then (s.setCounts 49 s.rem).arm syncDur
  else (s.setCounts ⟨s.pos.val + 1, by omega⟩ s.rem).arm (flagDur (s.bits[s.pos.val + 1]'(by omega)))

/-- The writes of one expiry (R161): the arming is consumed, the line is flipped, and the position advances. A later
write of `LINE` in the same step wins (00_scope.md R11), so only the final level is driven (R219). -/
def State.expire (s : State) : State :=
  ((s.disarm.driveLine (flipLevel s.line)).silent).advance

/-- `TIMER_EXPIRE` (R161), "enabled only when `TMR_ARMED = 1`" (R160); "When `TMR_ARMED = 0` the timer agent has no
step" (log 5). -/
def execTimerExpire (s : State) : Host.Outcome State Fault Refusal :=
  if s.tmrArmed then .next s.expire else .refused .timerNotArmed

end Sys2Proof.Machine
end

