-- ==== Sys2Proof/Machine/Trigger.lean ====
section
/-! DEFINITION. The trigger requests (42_trigger_requests.md R140 to R145). -/

namespace Sys2Proof.Machine

/-- `TRIGGER v` (R140): "The value is checked before the guard". -/
def execTrigger (v : Int) (s : State) : Host.Outcome State Fault Refusal :=
  if v = 0 then stopSession s
  else if v = 1 then start .single s
  else if v = 2 then start .cont s
  else raise .invalidArgument s

/-- `STOP`, which is `TRIGGER 0` (R83, R141). -/
def execStop (s : State) : Host.Outcome State Fault Refusal := stopSession s

/-- `SEND`, which is `TRIGGER 1` (R83, R143). -/
def execSend (s : State) : Host.Outcome State Fault Refusal := start .single s

/-- `SEND_CONT`, which is `TRIGGER 2` (R83, R144). -/
def execSendCont (s : State) : Host.Outcome State Fault Refusal := start .cont s

end Sys2Proof.Machine
end

