-- ==== Sys2Proof/Machine/Dispatch.lean ====
section
/-! DEFINITION. One arm per constructor of Instr: each calls its meaning. -/

namespace Sys2Proof.Machine

def exec (i : Instr) (s : State) : Host.Outcome State Fault Refusal :=
  match i with
  | .getAddress => Sys2Proof.Machine.execGetAddress s
  | .setAddress p => Sys2Proof.Machine.execSetAddress p s
  | .getCommand => Sys2Proof.Machine.execGetCommand s
  | .setCommand p => Sys2Proof.Machine.execSetCommand p s
  | .getCodeword => Sys2Proof.Machine.execGetCodeword s
  | .setCodeword p => Sys2Proof.Machine.execSetCodeword p s
  | .trigger v => Sys2Proof.Machine.execTrigger v s
  | .stop => Sys2Proof.Machine.execStop s
  | .send => Sys2Proof.Machine.execSend s
  | .sendCont => Sys2Proof.Machine.execSendCont s
  | .timerExpire => Sys2Proof.Machine.execTimerExpire s
  | .reset => Sys2Proof.Machine.execReset s
  | .reserved06 => Sys2Proof.Machine.execReserved06 s
  | .reserved0A0B x => Sys2Proof.Machine.execReserved0A0B x s
  | .reserved0C0F x => Sys2Proof.Machine.execReserved0C0F x s
  | .reserved101F x => Sys2Proof.Machine.execReserved101F x s
  | .reserved203F x => Sys2Proof.Machine.execReserved203F x s
  | .reserved407F x => Sys2Proof.Machine.execReserved407F x s
  | .reserved80FF x => Sys2Proof.Machine.execReserved80FF x s

end Sys2Proof.Machine
end

