-- ==== Sys2Proof/Machine/Fetch.lean ====
section
/-! DEFINITION. Which step the machine takes next. "Any enabled step of any agent may be taken next" (00_scope.md R12,
20_memory.md R60): the choice is the head of State.inputs. When nothing is queued, the only agent that can move is an
armed timer, and it does; with the timer disarmed the block waits (R160, R196; log 1). -/

namespace Sys2Proof.Machine

/-- What the fetch finds. -/
inductive Fetched where
  /-- run this instruction in this state -/
  | run (i : Instr) (s : State)
  /-- no agent has a step: the block waits -/
  | wait
  /-- the input has no meaning -/
  | refuse (r : Refusal)
  deriving DecidableEq, Repr

/-- Take an input off the list. -/
def State.dropInput (s : State) : State := { s with inputs := s.inputs.tail }

/-- Queue an input as the next one. -/
def State.pushInput (i : Input) (s : State) : State := { s with inputs := i :: s.inputs }

/-- An agent issues a request: it is decoded (R74), and the agent must be the one that may issue it (R72). A reserved
header from the host is refused by its own meaning (R73). -/
def fetchIssue (a : Agent) (r : Request) (s : State) : Fetched :=
  match decode r with
  | .error (.payloadKind op) => .refuse (.payloadKind op)
  | .ok i => if i.issuer = a then .run i s.dropInput else .refuse (.wrongIssuer a r.op)

/-- A teardown has no meaning in this spec (R213; log 13). -/
def fetchTeardown (s : State) : Fetched :=
  if s.guardHeld then .refuse .teardownWhileBusy else .refuse .teardownOutOfScope

/-- The next step (log 1). -/
def fetch (s : State) : Fetched :=
  match s.inputs with
  | [] => if s.tmrArmed then .run .timerExpire s else .wait
  | .teardown :: _ => fetchTeardown s
  | .issue a r :: _ => fetchIssue a r s

/-- The agent that issues the header of a word. -/
def issuerOfWord (w : Nat) : Agent :=
  match decode (requestOfWord w) with
  | .ok i => i.issuer
  | .error _ => .host

/-- The header of a word is TIMER_EXPIRE's, whose step needs an armed timer (R160). -/
def wordNeedsTimer (w : Nat) : Bool := BitVec.ofNat 8 w == (0x08 : Byte)

/-- Queue the request of a header word as the next input, from the agent that issues it, and arm the timer where the
step needs it armed (log 6). -/
def State.queueWord (w : Nat) (s : State) : State :=
  { s.pushInput (.issue (issuerOfWord w) (requestOfWord w)) with tmrArmed := s.tmrArmed || wordNeedsTimer w }

end Sys2Proof.Machine
end

