-- ==== Sys2Proof/Machine/Step.lean ====
section
/-! DEFINITION. One atomic step of one agent (00_scope.md R11, R12). -/

namespace Sys2Proof.Machine

/-- Take the next step: run the fetched instruction, wait where no agent has a step, or refuse the input (R182). -/
def step (s : State) : Host.Outcome State Fault Refusal :=
  match fetch s with
  | .run i t => exec i t
  | .wait => .next s
  | .refuse r => .refused r

/-- `s` with the request whose header is `w` as the next input (log 6). `nbits` is 8 for every row of the table. -/
def State.withFetchWord (s : State) (_nbits w : Nat) : State := s.queueWord w

end Sys2Proof.Machine
end

