-- ==== Sys2Proof/Machine/Assembler.lean ====
section
/-! DEFINITION. The text form of a request and its listing (30_encoding.md R82 to R84), "used by the programs of
95_test_vectors.md". It stands outside the block: no step reads a text. Texts are lists of characters. -/

namespace Sys2Proof.Machine

/-- A space or a tab (log 16). -/
def isBlankChar (c : Char) : Bool := c == ' ' || c == '\t'

/-- The rest of a line after its blanks. -/
def skipBlanks : List Char → List Char
  | [] => []
  | c :: cs => if isBlankChar c then skipBlanks cs else c :: cs

/-- A character of a mnemonic. -/
def isMnemonicChar (c : Char) : Bool := ('A' ≤ c && c ≤ 'Z') || c == '_'

/-- The mnemonic at the head of a line, and the rest. -/
def takeMnemonic : List Char → List Char × List Char
  | [] => ([], [])
  | c :: cs => if isMnemonicChar c then ((c :: (takeMnemonic cs).1), (takeMnemonic cs).2) else ([], c :: cs)

/-- The value of a decimal digit. -/
def digitValue (c : Char) : Option Nat :=
  if '0' ≤ c ∧ c ≤ '9' then some (c.toNat - '0'.toNat) else none

/-- The value of a hexadecimal digit, of either case (log 16). -/
def hexValue (c : Char) : Option Nat :=
  if '0' ≤ c ∧ c ≤ '9' then some (c.toNat - '0'.toNat)
  else if 'a' ≤ c ∧ c ≤ 'f' then some (c.toNat - 'a'.toNat + 10)
  else if 'A' ≤ c ∧ c ≤ 'F' then some (c.toNat - 'A'.toNat + 10)
  else none

/-- The byte of a printable ASCII character (R82). -/
def printableByte (c : Char) : Option Byte :=
  if 0x20 ≤ c.toNat ∧ c.toNat ≤ 0x7E then some (BitVec.ofNat 8 c.toNat) else none

/-- The bytes of a string after its opening quote, and the rest after the closing one: "`\xHH` stands for the byte
`0xHH`", and each other printable character for its own byte (R82). Where R82 does not say, the model chooses (log 16): a `\x`
without two hex digits after it makes the line malformed, and any other backslash stands for its own byte. -/
def takeString : List Char → Option (List Byte × List Char)
  | [] => none
  | '"' :: cs => some ([], cs)
  | '\\' :: 'x' :: h :: l :: cs =>
    match hexValue h, hexValue l, takeString cs with
    | some hi, some lo, some (bs, rest) => some (BitVec.ofNat 8 (16 * hi + lo) :: bs, rest)
    | _, _, _ => none
  | '\\' :: 'x' :: _ => none
  | c :: cs =>
    match printableByte c, takeString cs with
    | some b, some (bs, rest) => some (b :: bs, rest)
    | _, _ => none

/-- The digits at the head of a line: their value, how many, and the rest. -/
def takeDigits : Nat → List Char → Nat × Nat × List Char
  | acc, [] => (acc, 0, [])
  | acc, c :: cs =>
    match digitValue c with
    | some d => let r := takeDigits (10 * acc + d) cs; (r.1, r.2.1 + 1, r.2.2)
    | none => (acc, 0, c :: cs)

/-- At least one digit. -/
def takeNumber (cs : List Char) : Option (Nat × List Char) :=
  match takeDigits 0 cs with
  | (_, 0, _) => none
  | (v, _ + 1, rest) => some (v, rest)

/-- "`<int>` is a decimal integer with an optional leading `-`" (R82). The model takes leading zeros, `-0` as 0, and no blank
after the `-` (log 16). -/
def takeInteger : List Char → Option (Int × List Char)
  | '-' :: cs => (takeNumber cs).map fun x => (-(x.1 : Int), x.2)
  | cs => (takeNumber cs).map fun x => ((x.1 : Int), x.2)

/-- Nothing but blanks and a comment is left: "A `;` starts a comment that runs to the end of the line" (R82).
That blanks may stand there is the model's choice (log 16). -/
def atLineEnd (cs : List Char) : Bool :=
  match skipBlanks cs with
  | [] => true
  | ';' :: _ => true
  | _ => false

/-- A mnemonic with no operand. -/
def assembleBare (i : Instr) (rest : List Char) : Option Instr := if atLineEnd rest then some i else none

/-- A mnemonic with a string operand. Blanks may separate the two, and none need to: R82 does not say (log 16). -/
def assembleStr (f : List Byte → Instr) (rest : List Char) : Option Instr :=
  match skipBlanks rest with
  | '"' :: cs =>
    match takeString cs with
    | some (p, more) => if atLineEnd more then some (f p) else none
    | none => none
  | _ => none

/-- A mnemonic with an integer operand. Blanks may separate the two, and none need to: R82 does not say (log 16). -/
def assembleInt (f : Int → Instr) (rest : List Char) : Option Instr :=
  match takeInteger (skipBlanks rest) with
  | some (v, more) => if atLineEnd more then some (f v) else none
  | none => none

/-- The instruction of one line: "the mnemonic, then the operand" (R82), the pseudo-instructions included (R83). Blanks
may stand before the mnemonic: R82 does not say (log 16). -/
def assembleLine (line : List Char) : Option Instr :=
  let m := takeMnemonic (skipBlanks line)
  let name := String.ofList m.1
  if name = "GET_ADDRESS" then assembleBare .getAddress m.2
  else if name = "SET_ADDRESS" then assembleStr .setAddress m.2
  else if name = "GET_COMMAND" then assembleBare .getCommand m.2
  else if name = "SET_COMMAND" then assembleStr .setCommand m.2
  else if name = "GET_CODEWORD" then assembleBare .getCodeword m.2
  else if name = "SET_CODEWORD" then assembleStr .setCodeword m.2
  else if name = "TRIGGER" then assembleInt .trigger m.2
  else if name = "STOP" then assembleBare .stop m.2
  else if name = "SEND" then assembleBare .send m.2
  else if name = "SEND_CONT" then assembleBare .sendCont m.2
  else if name = "TIMER_EXPIRE" then assembleBare .timerExpire m.2
  else if name = "RESET" then assembleBare .reset m.2
  else none

/-- One hexadecimal digit, capital. -/
def hexDigit (n : Nat) : Char :=
  if n < 10 then Char.ofNat ('0'.toNat + n) else Char.ofNat ('A'.toNat + (n - 10))

/-- A byte as two hexadecimal digits. -/
def hexByte (b : Byte) : List Char := [hexDigit (b.toNat / 16), hexDigit (b.toNat % 16)]

/-- The bytes of a payload in hex, one space between (R84). -/
def hexBytes : List Byte → List Char
  | [] => []
  | [b] => hexByte b
  | b :: bs => hexByte b ++ ' ' :: hexBytes bs

/-- A decimal integer (R84). -/
def decimalInt (v : Int) : List Char :=
  match v with
  | .ofNat n => Nat.toDigits 10 n
  | .negSucc n => '-' :: Nat.toDigits 10 (n + 1)

/-- The listing of a request: "its header byte followed by its payload", a bar between (R84). -/
def listing (r : Request) : List Char :=
  match r.payload with
  | .none => hexByte r.op
  | .str p => hexByte r.op ++ [' ', '|', ' '] ++ hexBytes p
  | .int v => hexByte r.op ++ [' ', '|', ' '] ++ decimalInt v

end Sys2Proof.Machine
end

