-- ==== Sys2Proof/Machine/Pack.lean ====
section
/-! DEFINITION. The packed layouts (10_state.md R20, R32, R38) and the status codes (30_encoding.md R80). "No request
reads it, and no rule depends on it" (R38): views of State, which no meaning uses. -/

namespace Sys2Proof.Machine

/-- The 2-bit code of a symbol: `S0 = 0b00`, `S1 = 0b01`, `SF = 0b10` (R38). -/
def symCode (s : Sym) : BitVec 2 :=
  match s with
  | .s0 => 0b00
  | .s1 => 0b01
  | .sf => 0b10

/-- The symbol of a code; "`0b11` is never stored" (R38, U4). -/
def symOfCode (c : BitVec 2) : Option Sym :=
  match c with
  | 0b00#2 => some .s0
  | 0b01#2 => some .s1
  | 0b10#2 => some .sf
  | _ => none

/-- The bit of a flag: 0 narrow, 1 wide (R9). -/
def flagBit (f : Flag) : Bool :=
  match f with
  | .narrow => false
  | .wide => true

/-- The bit of a level: 0 low, 1 high (R9). -/
def levelBit (l : Level) : Bool :=
  match l with
  | .low => false
  | .high => true

/-- The bit of a mode: `SINGLE = 0`, `CONT = 1` (R20). -/
def modeBit (m : Mode) : Bool :=
  match m with
  | .single => false
  | .cont => true

/-- The 2-bit code of an armed duration (R32). -/
def durCode (d : Dur) : BitVec 2 :=
  match d with
  | .u1 => 0b00
  | .u3 => 0b01
  | .u30 => 0b10

/-- The duration of a code; "`0b11` is never written" (R32, U5). -/
def durOfCode (c : BitVec 2) : Option Dur :=
  match c with
  | 0b00#2 => some .u1
  | 0b01#2 => some .u3
  | 0b10#2 => some .u30
  | _ => none

/-- Symbols packed two bits each, symbol 0 lowest. -/
def packSyms : List Sym → Nat
  | [] => 0
  | x :: xs => (symCode x).toNat + 4 * packSyms xs

/-- Flags packed one bit each, flag 0 lowest. -/
def packFlags : List Flag → Nat
  | [] => 0
  | f :: fs => (flagBit f).toNat + 2 * packFlags fs

/-- `ADDR_P`: `ADDR_P[2i+1:2i]` holds `ADDR[i]` (R38). -/
def packAddr (v : Vector Sym 10) : BitVec 20 := BitVec.ofNat 20 (packSyms v.toList)

/-- `CMD_P` (R38). -/
def packCmd (v : Vector Sym 2) : BitVec 4 := BitVec.ofNat 4 (packSyms v.toList)

/-- `BITS_P`: `BITS_P[i]` holds `BITS[i]` (R38). -/
def packBits (v : Vector Flag 49) : BitVec 49 := BitVec.ofNat 49 (packFlags v.toList)

/-- `POS` in its 6 bits (R20). -/
def packPos (p : Fin 50) : BitVec 6 := BitVec.ofNat 6 p.val

/-- `REM` in its `REM_W` bits (R20). -/
def packRem (s : State) : BitVec s.params.remW := BitVec.ofNat s.params.remW s.rem

/-- The code of a response status: `OK = 0`, `INVALID_ARGUMENT = 1`, `BUSY = 2` (R80). -/
def statusCode (st : Status) : Nat :=
  match st with
  | .ok => 0
  | .invalidArgument => 1
  | .busy => 2

end Sys2Proof.Machine
end

