-- ==== Sys2Proof/Machine/Timed.lean ====
section
/-! DEFINITION. The timed refinement (60_exceptions.md R186, R191; 70_reset_and_hazards.md R217, R222). "Time is a
non-negative real" (R191): the type `Time`. The definitions are over any type of time that adds and is ordered, so that
they run on numbers too (log 14). The machine inside takes the untimed steps of Machine/Step.lean, one input at a
time. -/

namespace Sys2Proof.Machine

/-- An instant or a duration: "a non-negative real" (R191). -/
abbrev Time : Type := NNReal

/-- What reaches the block at an instant: a host request, or a reset by the platform. The timer's own events come from
the deadline. -/
inductive Arrival where
  | request (r : Request)
  | reset
  deriving DecidableEq, Repr

/-- A timed state: the durations of R6, which no step writes; the block; the instant of the last step; the pending
deadline, read only while the timer is armed; and the arrivals still to come with their instants. -/
structure Timed (τ : Type) where
  timing : Timing τ
  machine : State
  now : τ
  deadline : τ
  arrivals : List (τ × Arrival)
  deriving DecidableEq, Repr

/-- The input that an arrival is. -/
def arrivalInput (a : Arrival) : Input :=
  match a with
  | .request r => .issue .host r
  | .reset => .issue .platform ⟨0x09, .none⟩

/-- The input that the timer's firing is (R72). -/
def timerInput : Input := .issue .timer ⟨0x08, .none⟩

/-- One untimed step of the block on one input. -/
def stepOn (i : Input) (s : State) : Host.Outcome State Fault Refusal := step { s with inputs := [i] }

section
variable {τ : Type} [AddCommMonoid τ] [LinearOrder τ]

/-- A duration as time: a whole number of `u = T_NARROW` (R7). -/
def durTime (k : Timing τ) (d : Dur) : τ := durUnits d • k.tNarrow

/-- The instant at which the pending expiry is handled: `t + L_STEP` for the deadline `t` (R191). -/
def handlingInstant (t : Timed τ) : τ := t.deadline + t.timing.lStep

/-- The deadline after an expiry handled for deadline `t`: `t + interval(POS')` when the step re-arms, counted "from the
deadline just handled, not from the time the handling finished" (R191). -/
def rearmedDeadline (t : Timed τ) (m : State) : τ :=
  if m.tmrArmed then t.deadline + durTime t.timing m.tmrDur else t.deadline

/-- The deadline after an arrival served at an instant: a start at `t0` arms `t0 + interval(0)` (R191). -/
def startedDeadline (t : Timed τ) (instant : τ) (m : State) : τ :=
  if m.tmrArmed && !t.machine.tmrArmed then instant + durTime t.timing m.tmrDur else t.deadline

/-- The pending expiry is handled. -/
def fireTimer (t : Timed τ) : Host.Outcome (Timed τ) Fault Refusal :=
  match stepOn timerInput t.machine with
  | .next m => .next { t with machine := m, now := handlingInstant t, deadline := rearmedDeadline t m }
  | .fault f => .fault f
  | .refused r => .refused r

/-- The instant an arrival is served: its own, or the present one if that is later (log 15). -/
def serviceInstant (t : Timed τ) (instant : τ) : τ := max t.now instant

/-- The first arrival is served. -/
def serveArrival (t : Timed τ) (instant : τ) (a : Arrival) (rest : List (τ × Arrival)) :
    Host.Outcome (Timed τ) Fault Refusal :=
  match stepOn (arrivalInput a) t.machine with
  | .next m =>
    .next { t with
      machine := m, now := serviceInstant t instant, deadline := startedDeadline t (serviceInstant t instant) m,
      arrivals := rest }
  | .fault f => .fault f
  | .refused r => .refused r

/-- One timed step. The expiry goes first when it is due by the next arrival's instant: "when a host request and an
expiry fall at the same instant, the expiry's step is taken first" (R186); that a reset at such an instant waits too
(log 15), and that an arrival between a deadline and its handling goes first (log 14), are the model's choices. With no arrival left and the timer disarmed nothing more happens. -/
def timedStep (t : Timed τ) : Host.Outcome (Timed τ) Fault Refusal :=
  match t.arrivals with
  | [] => if t.machine.tmrArmed then fireTimer t else .next t
  | (instant, a) :: rest =>
    if t.machine.tmrArmed && decide (handlingInstant t ≤ serviceInstant t instant) then fireTimer t
    else serveArrival t instant a rest

/-- `k` timed steps. -/
def timedRun : Nat → Timed τ → Host.Outcome (Timed τ) Fault Refusal
  | 0, t => .next t
  | k + 1, t =>
    match timedStep t with
    | .next t' => timedRun k t'
    | .fault f => .fault f
    | .refused r => .refused r

end

end Sys2Proof.Machine
end

