-- ==== Sys2Proof/Safety.lean ====
section
/-! DEFINITION. The terms in which claims are made: the controller states and the invariants (10_state.md R33, R34),
what stays unchanged (frames), the reachable states, runs of expiries, and what the host observes (R35;
92_eei_decisions.md D33). -/

namespace Sys2Proof.Machine

/-- Idle: `BUSY = 0`, with the session registers as invariants I1, I2, I4 and I5 have them (R33, R34). -/
abbrev State.Idle (s : State) : Prop :=
  s.busy = false ∧ s.tmrArmed = false ∧ s.line = .low ∧ s.pos = 0 ∧ s.rem = 0

/-- The invariants I1 to I7 (R34), and the legality of the parameters (R6). -/
structure State.Inv (s : State) : Prop where
  legal : s.params.Legal
  guardIsTimer : s.busy = s.tmrArmed
  idleLine : s.busy = false → s.line = .low
  bitsCurrent : s.busy = true → s.bits = encodeCodeword s.codeword
  idlePos : s.busy = false → s.pos = 0
  singleRem : s.busy = true → s.mode = .single → 1 ≤ s.rem ∧ s.rem ≤ s.params.nSingle
  idleRem : s.busy = false → s.rem = 0
  contRem : s.mode = .cont → s.rem = 0
  levelOfPos : s.busy = true → s.line = levelAt s.pos.val
  armedInterval : s.busy = true → s.tmrDur = interval s.bits s.pos

/-- The invariant of the timed refinement: the block meets its own, the durations are legal (R6), and the present is not
past the handling of the pending deadline (R191). -/
structure Timed.Inv (t : Timed Time) : Prop where
  block : t.machine.Inv
  legal : t.timing.Legal
  notPast : t.machine.tmrArmed = true → t.now ≤ t.deadline + t.timing.lStep

/-- `ADDR` and `CMD` are unchanged. -/
abbrev SameCodeword (s t : State) : Prop := t.addr = s.addr ∧ t.cmd = s.cmd

/-- `BITS`, `BUSY`, `MODE`, `REM`, `POS`, `LINE`, `TMR_ARMED` and `TMR_DUR` are unchanged. -/
abbrev SameSession (s t : State) : Prop :=
  t.bits = s.bits ∧ t.busy = s.busy ∧ t.mode = s.mode ∧ t.rem = s.rem ∧ t.pos = s.pos ∧ t.line = s.line ∧
  t.tmrArmed = s.tmrArmed ∧ t.tmrDur = s.tmrDur

/-- The model's own fields but the response are unchanged. -/
abbrev SameModel (s t : State) : Prop := t.params = s.params ∧ t.inputs = s.inputs ∧ t.freeIdx = s.freeIdx

/-- The state after reset for given parameters (R37: the initial codeword is a parameter). -/
def State.resetWith (p : Params) : State :=
  { State.reset with addr := p.initAddress, cmd := p.initCommand, params := p }

/-- The states a run can reach, for any legal parameters, any unspecified values of `BITS` and `TMR_DUR`, and any
inputs, queued at any time (R11, R12, R60). -/
inductive Reachable : State → Prop where
  | reset (p : Params) (hp : p.Legal) (b : Vector Flag 49) (d : Dur) :
      Reachable { State.resetWith p with bits := b, tmrDur := d }
  | queue (s : State) (l : List Input) (hs : Reachable s) : Reachable { s with inputs := l }
  | step (s t : State) (hs : Reachable s) (h : step s = .next t) : Reachable t

/-- `k` expiries in a row. -/
def expiries : Nat → State → Host.Outcome State Fault Refusal
  | 0, s => .next s
  | k + 1, s =>
    match exec .timerExpire s with
    | .next t => expiries k t
    | .fault f => .fault f
    | .refused r => .refused r

/-- The observation of the line: its level, with the duration armed, or none when disarmed (D33). -/
def State.observe (s : State) : Level × Option Dur := (s.line, if s.tmrArmed then some s.tmrDur else none)

/-- The observations of a state and of the states after each of the next expiries, `k` in all. -/
def lineTrace : Nat → State → List (Level × Option Dur)
  | 0, _ => []
  | k + 1, s =>
    s.observe ::
      match exec .timerExpire s with
      | .next t => lineTrace k t
      | .fault _ => []
      | .refused _ => []

/-- The number of places where a level differs from the one before it (R166). -/
def levelChanges : List Level → Nat
  | [] => 0
  | [_] => 0
  | a :: b :: ls => (if a = b then 0 else 1) + levelChanges (b :: ls)

/-- A payload of `n` bytes, each `0`, `1`, `f` or `F` (the table of R76). -/
abbrev TriPayload (p : List Byte) (n : Nat) : Prop :=
  p.length = n ∧ ∀ b ∈ p, b = 0x30 ∨ b = 0x31 ∨ b = 0x66 ∨ b = 0x46

/-- A payload of `n` bytes, each `0` or `1` (the table of R77). -/
abbrev BinPayload (p : List Byte) (n : Nat) : Prop := p.length = n ∧ ∀ b ∈ p, b = 0x30 ∨ b = 0x31

/-- The byte carries the symbol (the table of R76, of which R77's is a part). -/
abbrev Carries (b : Byte) (x : Sym) : Prop :=
  (b = 0x30 ∧ x = .s0) ∨ (b = 0x31 ∧ x = .s1) ∨ ((b = 0x66 ∨ b = 0x46) ∧ x = .sf)

/-- What the host can observe of two states is the same: `ADDR`, `CMD`, `BUSY` and `LINE` (R35). -/
abbrev SameVisible (s t : State) : Prop := SameCodeword s t ∧ t.busy = s.busy ∧ t.line = s.line

end Sys2Proof.Machine
end

