-- ==== Sys2Proof/Certificates/Slice0/Obligations.lean ====
section
/-! DEFINITION. The statements about the model. A statement that rests on a decision or a derivation that the spec marks
as its own says so, and OBLIGATIONS.json gives it the basis "derived". -/

open Sys2Proof Sys2Proof.Machine

/-! ## Reset and invariants -/

/-- The state after reset is Idle, in mode SINGLE, with the initial codeword (10_state.md R37). The values are the
spec's own decisions D11 and D12 (log 17). -/
def Obligations.ResetStateIsIdle : Prop :=
  State.reset.Idle ∧ State.reset.mode = .single ∧
  State.reset.addr = State.reset.params.initAddress ∧ State.reset.cmd = State.reset.params.initCommand ∧
  State.reset.params.Legal

/-- "Each invariant holds after reset (rule R37)" (R34), whatever `BITS` and `TMR_DUR` are. -/
def Obligations.ResetMeetsInvariant : Prop :=
  ∀ (p : Params) (b : Vector Flag 49) (d : Dur) (l : List Input), p.Legal →
    State.Inv { State.resetWith p with bits := b, tmrDur := d, inputs := l }

/-- Every step of every agent keeps the invariants I1 to I7 (R34, which the spec derives). -/
def Obligations.StepKeepsInvariant : Prop :=
  ∀ s t : State, s.Inv → step s = .next t → t.Inv

/-- The invariants hold in every state reachable from reset, for all legal parameters and all inputs (R34). -/
def Obligations.ReachableStatesMeetInvariant : Prop :=
  ∀ s : State, Reachable s → s.Inv

/-- RESET completes in every state, a running session included: Idle, mode SINGLE, the initial codeword, no response,
and the model's own fields kept but for the free index; `BITS` and `TMR_DUR` take some values (R210, the spec's own
decisions D11, D12, D24, D32; log 4, log 17). -/
def Obligations.ResetFromAnyState : Prop :=
  ∀ s : State, ∃ (b : Vector Flag 49) (d : Dur) (n : Nat),
    exec .reset s = .next { s with
      addr := s.params.initAddress, cmd := s.params.initCommand, bits := b, busy := false, mode := .single, rem := 0,
      pos := 0, line := .low, tmrArmed := false, tmrDur := d, response := none, freeIdx := n }

/-! ## Property requests -/

/-- The three gets answer OK with one character per symbol, in order, in every state, and change nothing but the
response (R121, R123, R125; the format is the spec's own decision D6 and the states decision D30, log 17). -/
def Obligations.GetsAnswerStoredFields : Prop :=
  ∀ s : State,
    (∃ d : List Byte, exec .getAddress s = .next { s with response := some ⟨.ok, d⟩ } ∧ d.length = 10 ∧
      ∀ i : Fin 10, d[i.val]? = some (chr s.addr[i])) ∧
    (∃ d : List Byte, exec .getCommand s = .next { s with response := some ⟨.ok, d⟩ } ∧ d.length = 2 ∧
      ∀ j : Fin 2, d[j.val]? = some (chr s.cmd[j])) ∧
    (∃ d : List Byte, exec .getCodeword s = .next { s with response := some ⟨.ok, d⟩ } ∧ d.length = 12 ∧
      (∀ i : Fin 10, d[i.val]? = some (chr s.addr[i])) ∧ ∀ j : Fin 2, d[10 + j.val]? = some (chr s.cmd[j]))

/-- SET_ADDRESS (R122): an invalid payload answers INVALID_ARGUMENT, then a held guard answers BUSY, and neither writes
state; otherwise the ten symbols are stored and the answer is OK, and nothing else changes. -/
def Obligations.SetAddressFollowsRule : Prop :=
  ∀ (s : State) (p : List Byte),
    (¬TriPayload p 10 → exec (.setAddress p) s = .next { s with response := some ⟨.invalidArgument, []⟩ }) ∧
    (TriPayload p 10 → s.busy = true → exec (.setAddress p) s = .next { s with response := some ⟨.busy, []⟩ }) ∧
    (TriPayload p 10 → s.busy = false → ∃ v : Vector Sym 10,
      exec (.setAddress p) s = .next { s with addr := v, response := some ⟨.ok, []⟩ } ∧
      ∀ i : Fin 10, ∃ b : Byte, p[i.val]? = some b ∧ Carries b v[i])

/-- SET_COMMAND (R124): as SET_ADDRESS, over two bytes, with the floating symbol refused, so that afterwards the
command holds no SF. -/
def Obligations.SetCommandFollowsRule : Prop :=
  ∀ (s : State) (p : List Byte),
    (¬BinPayload p 2 → exec (.setCommand p) s = .next { s with response := some ⟨.invalidArgument, []⟩ }) ∧
    (BinPayload p 2 → s.busy = true → exec (.setCommand p) s = .next { s with response := some ⟨.busy, []⟩ }) ∧
    (BinPayload p 2 → s.busy = false → ∃ v : Vector Sym 2,
      exec (.setCommand p) s = .next { s with cmd := v, response := some ⟨.ok, []⟩ } ∧
      ∀ j : Fin 2, v[j] ≠ .sf ∧ ∃ b : Byte, p[j.val]? = some b ∧ Carries b v[j])

/-- SET_CODEWORD (R126; the order of the fields is the spec's own decision D9, log 17): both fields are written in one
step, and only on OK. -/
def Obligations.SetCodewordFollowsRule : Prop :=
  ∀ (s : State) (p : List Byte),
    (¬TriPayload p 12 → exec (.setCodeword p) s = .next { s with response := some ⟨.invalidArgument, []⟩ }) ∧
    (TriPayload p 12 → s.busy = true → exec (.setCodeword p) s = .next { s with response := some ⟨.busy, []⟩ }) ∧
    (TriPayload p 12 → s.busy = false → ∃ (v : Vector Sym 10) (w : Vector Sym 2),
      exec (.setCodeword p) s = .next { s with addr := v, cmd := w, response := some ⟨.ok, []⟩ } ∧
      (∀ i : Fin 10, ∃ b : Byte, p[i.val]? = some b ∧ Carries b v[i]) ∧
      ∀ j : Fin 2, ∃ b : Byte, p[10 + j.val]? = some b ∧ Carries b w[j])

/-- No request of the property family writes the session or the model's own fields, and none writes anything while
BUSY = 1, where a set answers INVALID_ARGUMENT or BUSY; so a step between two states with BUSY = 1 keeps the codeword
(R127). -/
def Obligations.PropertyRequestsKeepTheSession : Prop :=
  (∀ (p : List Byte) (s t : State),
    (exec .getAddress s = .next t ∨ exec .getCommand s = .next t ∨ exec .getCodeword s = .next t ∨
      exec (.setAddress p) s = .next t ∨ exec (.setCommand p) s = .next t ∨ exec (.setCodeword p) s = .next t) →
    SameSession s t ∧ SameModel s t ∧ (s.busy = true → SameCodeword s t)) ∧
  (∀ (p : List Byte) (s t : State), s.busy = true →
    (exec (.setAddress p) s = .next t ∨ exec (.setCommand p) s = .next t ∨ exec (.setCodeword p) s = .next t) →
    t.response = some ⟨.invalidArgument, []⟩ ∨ t.response = some ⟨.busy, []⟩) ∧
  (∀ s t : State, step s = .next t → s.busy = true → t.busy = true → SameCodeword s t)

/-- A codeword that is set while Idle reads back at once, with `F` as `f` (R122 and R126 corner cases, R221). -/
def Obligations.SetCodewordReadsBack : Prop :=
  ∀ (s : State) (p : List Byte), s.busy = false → TriPayload p 12 →
    ∃ t u : State, exec (.setCodeword p) s = .next t ∧ exec .getCodeword t = .next u ∧
      u.response = some ⟨.ok, p.map fun b => if b = 0x46 then 0x66 else b⟩

/-- The side effects of R57: a get changes nothing but the response; a failed set writes nothing and a successful one
only its field; a request other than a start may be repeated without effect (two sets of one payload, TRIGGER 0);
and after a start that was accepted a second start is rejected with BUSY. -/
def Obligations.RepeatedRequests : Prop :=
  (∀ s t : State, exec .getAddress s = .next t ∨ exec .getCommand s = .next t ∨ exec .getCodeword s = .next t →
    t = { s with response := t.response }) ∧
  (∀ (p : List Byte) (s t : State), exec (.setAddress p) s = .next t → t = { s with addr := t.addr, response := t.response } ∧
    (t.response ≠ some ⟨.ok, []⟩ → t.addr = s.addr)) ∧
  (∀ (p : List Byte) (s t : State), exec (.setCommand p) s = .next t → t = { s with cmd := t.cmd, response := t.response } ∧
    (t.response ≠ some ⟨.ok, []⟩ → t.cmd = s.cmd)) ∧
  (∀ (p : List Byte) (s t : State), exec (.setCodeword p) s = .next t →
    t = { s with addr := t.addr, cmd := t.cmd, response := t.response } ∧
    (t.response ≠ some ⟨.ok, []⟩ → SameCodeword s t)) ∧
  (∀ (i : Instr) (p : List Byte) (s t : State),
    (i = .getAddress ∨ i = .getCommand ∨ i = .getCodeword ∨ i = .setAddress p ∨ i = .setCommand p ∨
      i = .setCodeword p ∨ i = .trigger 0) →
    exec i s = .next t → exec i t = .next t) ∧
  (∀ (i j : Instr) (s t : State), (i = .trigger 1 ∨ i = .trigger 2) → (j = .trigger 1 ∨ j = .trigger 2) →
    exec i s = .next t → exec j t = .next { t with response := some ⟨.busy, []⟩ })

/-! ## Trigger requests -/

/-- TRIGGER v is STOP, SEND or SEND_CONT for 0, 1 and 2, and answers INVALID_ARGUMENT with no state written for every
other integer, whatever BUSY is (R140). -/
def Obligations.TriggerDispatchesOnItsValue : Prop :=
  ∀ s : State, exec (.trigger 0) s = exec .stop s ∧ exec (.trigger 1) s = exec .send s ∧
    exec (.trigger 2) s = exec .sendCont s ∧
    ∀ v : Int, v ≠ 0 → v ≠ 1 → v ≠ 2 →
      exec (.trigger v) s = .next { s with response := some ⟨.invalidArgument, []⟩ }

/-- STOP completes in every state and leaves Idle; it writes TMR_ARMED, LINE, BUSY, POS and REM and nothing else (R141;
the writes of POS and REM are the spec's own decision D19, log 17). -/
def Obligations.StopAlwaysSucceeds : Prop :=
  ∀ (i : Instr) (s : State), (i = .stop ∨ i = .trigger 0) →
    exec i s = .next { s with tmrArmed := false, line := .low, busy := false, pos := 0, rem := 0, response := some ⟨.ok, []⟩ }

/-- STOP while Idle changes nothing but the response, in every state that meets the invariants (R141, first corner case;
the source's property W4). -/
def Obligations.StopWhileIdleIsNoOp : Prop :=
  ∀ s : State, s.Inv → s.busy = false → exec .stop s = .next { s with response := some ⟨.ok, []⟩ }

/-- A start while BUSY = 0 completes: it takes the guard, regenerates the bitstring from the stored codeword, sets mode,
count, position and line, arms the first interval (3u exactly when the codeword starts with S1) and answers OK; it
writes nothing else. While BUSY = 1 it answers BUSY and writes nothing (R142). -/
def Obligations.StartFollowsRule : Prop :=
  ∀ (s : State) (i : Instr) (m : Mode),
    ((i = .send ∨ i = .trigger 1) ∧ m = .single ∨ (i = .sendCont ∨ i = .trigger 2) ∧ m = .cont) →
    (s.busy = false → exec i s = .next { s with
      busy := true, bits := encodeCodeword s.codeword, mode := m, rem := if m = .single then s.params.nSingle else 0,
      pos := 0, line := .high, tmrArmed := true, tmrDur := if s.addr[0] = .s1 then .u3 else .u1,
      response := some ⟨.ok, []⟩ }) ∧
    (s.busy = true → exec i s = .next { s with response := some ⟨.busy, []⟩ })

/-- A start while BUSY = 1 answers BUSY in every mode and leaves the running session unchanged; a host switches from
continuous to single mode by STOP and then SEND (R145). -/
def Obligations.StartWhileBusyIsRejected : Prop :=
  (∀ (s : State) (i : Instr), s.busy = true → (i = .send ∨ i = .sendCont ∨ i = .trigger 1 ∨ i = .trigger 2) →
    ∃ t : State, exec i s = .next t ∧ t.response = some ⟨.busy, []⟩ ∧ SameSession s t ∧ SameCodeword s t ∧ SameModel s t) ∧
  (∀ s : State, s.busy = true → s.mode = .cont →
    ∃ t u : State, exec .stop s = .next t ∧ exec .send t = .next u ∧ u.response = some ⟨.ok, []⟩ ∧
      u.busy = true ∧ u.mode = .single ∧ u.rem = s.params.nSingle)

/-! ## The encoder -/

/-- ENCODE fills flags 4i to 4i+3 from the symbol's row of the table, left to right, and flag 48 is narrow (R100,
R101). -/
def Obligations.EncoderFollowsTable : Prop :=
  (∀ (cw : Vector Sym 12) (i : Fin 12) (k : Fin 4),
    (symFlags cw[i])[k.val]? = some ((encodeCodeword cw)[4 * i.val + k.val]'(by omega))) ∧
  (∀ cw : Vector Sym 12, (encodeCodeword cw)[48] = .narrow) ∧
  symFlags .s0 = [.narrow, .wide, .narrow, .wide] ∧ symFlags .s1 = [.wide, .narrow, .wide, .narrow] ∧
  symFlags .sf = [.narrow, .wide, .wide, .narrow]

/-- Two codewords with one bitstring are equal: the waveform carries the whole codeword (from R100, R101). -/
def Obligations.EncoderIsInjective : Prop :=
  ∀ a b : Vector Sym 12, encodeCodeword a = encodeCodeword b → a = b

/-- Every symbol lasts 8u, and every pass of every codeword lasts 127u, high and low time together (R107, which the spec
derives from R100, R103 and R106). -/
def Obligations.EveryPassLasts127Units : Prop :=
  ∀ cw : Vector Sym 12,
    (∀ i : Fin 12, (((wave cw).drop (4 * i.val)).take 4 |> unitsOf) = 8) ∧
    unitsOf (wave cw) = 127 ∧ unitsAt .high (wave cw) + unitsAt .low (wave cw) = 127

/-! ## Timer expiry -/

/-- TIMER_EXPIRE has a step exactly when the timer is armed, so exactly when Sending; after a STOP the cancelled expiry
never fires; and the timer is one-shot: a step that ends a session leaves it disarmed (R160). That an expiry with no step
is refused as timerNotArmed is the model's reading of R160 (log 5). -/
def Obligations.ExpiryEnabledOnlyWhenArmed : Prop :=
  (∀ s : State, (∃ t, exec .timerExpire s = .next t) ↔ s.tmrArmed = true) ∧
  (∀ s : State, s.Inv → ((∃ t, exec .timerExpire s = .next t) ↔ s.busy = true)) ∧
  (∀ s t : State, exec .stop s = .next t → exec .timerExpire t = .refused .timerNotArmed) ∧
  (∀ s t : State, s.Inv → exec .timerExpire s = .next t → t.busy = false →
    exec .timerExpire t = .refused .timerNotArmed)

/-- An expiry that takes POS from p - 1 to p, for p from 1 to 48, flips the line and arms DUR(BITS[p]); the start step
and a pass repetition arm DUR(BITS[0]); nothing else is written but the response (R165). -/
def Obligations.FlagIntervalsAreArmed : Prop :=
  (∀ (s : State) (h : s.pos.val < 48), s.tmrArmed = true →
    exec .timerExpire s = .next { s with
      pos := ⟨s.pos.val + 1, by omega⟩, line := if s.line = .high then .low else .high,
      tmrDur := if s.bits[s.pos.val + 1]'(by omega) = .wide then .u3 else .u1, response := none }) ∧
  (∀ s t : State, exec .send s = .next t ∨ exec .sendCont s = .next t → s.busy = false →
    t.tmrArmed = true ∧ t.tmrDur = if t.bits[0] = .wide then .u3 else .u1) ∧
  (∀ s t : State, exec .timerExpire s = .next t → s.pos = 49 → t.tmrArmed = true →
    t.tmrDur = if t.bits[0] = .wide then .u3 else .u1)

/-- The expiry that takes POS from 48 to 49 arms the sync duration of 30 units, and the line is then low; nothing else is
written but the response (R164). -/
def Obligations.SyncIntervalIsArmed : Prop :=
  ∀ s : State, s.Inv → s.busy = true → s.pos = 48 →
    exec .timerExpire s = .next { s with pos := 49, line := .low, tmrDur := .u30, response := none } ∧
    durUnits .u30 = 30

/-- The expiry that ends a pass of a session that goes on starts the next pass, and in single mode decrements REM
(R163). -/
def Obligations.PassRepeats : Prop :=
  ∀ s : State, s.tmrArmed = true → s.pos = 49 → (s.mode = .cont ∨ s.mode = .single ∧ 2 ≤ s.rem) →
    exec .timerExpire s = .next { s with
      pos := 0, line := .high, tmrDur := if s.bits[0] = .wide then .u3 else .u1,
      rem := if s.mode = .single then s.rem - 1 else s.rem, response := none }

/-- Natural completion: the expiry that ends a pass with MODE = SINGLE and REM = 1 leaves Idle, and no response (R162). -/
def Obligations.SessionCompletes : Prop :=
  ∀ s : State, s.tmrArmed = true → s.pos = 49 → s.mode = .single → s.rem = 1 →
    exec .timerExpire s = .next { s with
      line := .low, busy := false, tmrArmed := false, pos := 0, rem := 0, response := none }

/-- The frame of TIMER_EXPIRE: it never writes ADDR, CMD, BITS or MODE, nor the model's own fields, and answers nothing;
it ends a session only from POS = 49 (R161, whose pseudocode rests on the spec's own decisions D14, D18 and D19,
log 17). -/
def Obligations.ExpiryFrame : Prop :=
  ∀ s t : State, exec .timerExpire s = .next t →
    SameCodeword s t ∧ t.bits = s.bits ∧ t.mode = s.mode ∧ SameModel s t ∧ t.response = none ∧
    (t.busy ≠ s.busy → s.pos = 49 ∧ s.mode = .single ∧ t.Idle)

/-! ## Whole-machine rules -/

/-- POS moves in one order: a step leaves it, or sets it to 0, or adds one, and only TIMER_EXPIRE adds one (R168, which
the spec derives). -/
def Obligations.PosMovesInOrder : Prop :=
  (∀ s t : State, step s = .next t → t.pos = s.pos ∨ t.pos = 0 ∨ t.pos.val = s.pos.val + 1) ∧
  (∀ (i : Instr) (s t : State), i ≠ .timerExpire → exec i s = .next t → t.pos = s.pos ∨ t.pos = 0) ∧
  (∀ s t : State, exec .timerExpire s = .next t → (s.pos = 49 → t.pos = 0) ∧ (s.pos ≠ 49 → t.pos.val = s.pos.val + 1))

/-- Only an accepted start sets BUSY or arms a disarmed timer; only a stop, a natural completion and a reset clear BUSY;
and LINE is written only by a start, an expiry, a stop and a reset (R28, R32, R59, R212; RESET is the spec's own
decision D24, log 17). -/
def Obligations.WhoChangesGuardTimerAndLine : Prop :=
  ∀ (i : Instr) (s t : State), exec i s = .next t →
    (s.busy = false → t.busy = true → i = .trigger 1 ∨ i = .trigger 2 ∨ i = .send ∨ i = .sendCont) ∧
    (s.tmrArmed = false → t.tmrArmed = true → i = .trigger 1 ∨ i = .trigger 2 ∨ i = .send ∨ i = .sendCont) ∧
    (s.busy = true → t.busy = false → i = .trigger 0 ∨ i = .stop ∨ i = .reset ∨
      (i = .timerExpire ∧ s.pos = 49 ∧ s.mode = .single)) ∧
    (t.line ≠ s.line → i = .trigger 0 ∨ i = .trigger 1 ∨ i = .trigger 2 ∨ i = .stop ∨ i = .send ∨ i = .sendCont ∨
      i = .timerExpire ∨ i = .reset)

/-- The waveform a session sends is fixed at its start: the start computes BITS from the stored codeword; a step from
BUSY = 1 to BUSY = 1 changes neither codeword, bitstring nor mode; a valid set is answered BUSY meanwhile; and the
codeword of a set that succeeds while Idle is the one the next start encodes (R63). -/
def Obligations.WaveformIsFixedAtStart : Prop :=
  (∀ s t : State, s.busy = false → exec .send s = .next t ∨ exec .sendCont s = .next t →
    t.bits = encodeCodeword (codewordOf s.addr s.cmd)) ∧
  (∀ s t : State, step s = .next t → s.busy = true → t.busy = true →
    SameCodeword s t ∧ t.bits = s.bits ∧ t.mode = s.mode) ∧
  (∀ (p : List Byte) (s : State), s.busy = true →
    (TriPayload p 10 → exec (.setAddress p) s = .next { s with response := some ⟨.busy, []⟩ }) ∧
    (BinPayload p 2 → exec (.setCommand p) s = .next { s with response := some ⟨.busy, []⟩ }) ∧
    (TriPayload p 12 → exec (.setCodeword p) s = .next { s with response := some ⟨.busy, []⟩ })) ∧
  (∀ (p : List Byte) (s : State), s.busy = false → TriPayload p 12 → ∃ (cw : Vector Sym 12) (t u : State),
    exec (.setCodeword p) s = .next t ∧ exec .send t = .next u ∧ u.bits = encodeCodeword cw ∧
    ∀ i : Fin 12, ∃ b : Byte, p[i.val]? = some b ∧ Carries b cw[i])

/-- An error answers no data and writes no state: nothing but the response differs (R181). -/
def Obligations.ErrorsWriteNothing : Prop :=
  ∀ (i : Instr) (s t : State) (r : Response), i.isHost = true → exec i s = .next t → t.response = some r →
    r.status ≠ .ok → r.data = [] ∧ t = { s with response := some r }

/-- Which requests answer which error, and the codes of the two (R180). -/
def Obligations.ErrorCauses : Prop :=
  statusCode .invalidArgument = 1 ∧ statusCode .busy = 2 ∧
  ∀ (i : Instr) (s t : State) (r : Response), i.isHost = true → exec i s = .next t → t.response = some r →
    (r.status = .invalidArgument ↔
      (∃ p, i = .setAddress p ∧ ¬TriPayload p 10) ∨ (∃ p, i = .setCommand p ∧ ¬BinPayload p 2) ∨
      (∃ p, i = .setCodeword p ∧ ¬TriPayload p 12) ∨ (∃ v : Int, i = .trigger v ∧ v ≠ 0 ∧ v ≠ 1 ∧ v ≠ 2)) ∧
    (r.status = .busy ↔ s.busy = true ∧
      ((∃ p, i = .setAddress p ∧ TriPayload p 10) ∨ (∃ p, i = .setCommand p ∧ BinPayload p 2) ∨
       (∃ p, i = .setCodeword p ∧ TriPayload p 12) ∨ i = .trigger 1 ∨ i = .trigger 2 ∨ i = .send ∨ i = .sendCont))

/-- Every host request but a reserved header takes a step in every state and ends in one response, with data exactly for
the gets; the steps of the timer and of the platform answer none (R70, the spec's own decision D2, log 17). -/
def Obligations.HostRequestsAnswerOnce : Prop :=
  (∀ (i : Instr) (s : State), i.isHost = true → headerKind (encode i).op ≠ none →
    ∃ (t : State) (r : Response), exec i s = .next t ∧ t.response = some r ∧
      (r.data ≠ [] ↔ i = .getAddress ∨ i = .getCommand ∨ i = .getCodeword)) ∧
  (∀ (i : Instr) (s t : State), i.isHost = false → exec i s = .next t → t.response = none)

/-- What a request answers, and what of its effect the host can see, depends only on what the host can see: the hidden
registers show in no response (R35, whose closed list is the spec's own decision D20, log 17). -/
def Obligations.HiddenStateStaysHidden : Prop :=
  ∀ (i : Instr) (s s' t t' : State), i.isHost = true → SameVisible s s' →
    exec i s = .next t → exec i s' = .next t' → t.response = t'.response ∧ SameVisible t t'

/-- REM never exceeds N_SINGLE and fits its REM_W bits, and where a single-frame session decrements it, it is at least 1
(R169, R30; the spec derives it from I5). -/
def Obligations.RemFitsItsWidth : Prop :=
  ∀ s : State, s.Inv → s.rem ≤ s.params.nSingle ∧ (packRem s).toNat = s.rem ∧
    ∀ t : State, exec .timerExpire s = .next t → s.pos = 49 → s.mode = .single →
      1 ≤ s.rem ∧ (t.rem : Int) = (s.rem : Int) - 1

/-- A step takes at most the next input, writes no parameter, and draws a free value only for a RESET (log 1, log 3,
log 4: the model's own conventions). -/
def Obligations.StepTakesOneInput : Prop :=
  ∀ s t : State, step s = .next t → t.inputs = s.inputs.tail ∧ t.params = s.params ∧
    (t.freeIdx = s.freeIdx ∨ t.freeIdx = s.freeIdx + 1 ∧ ∃ r rest, s.inputs = .issue .platform r :: rest ∧ r.op = 0x09)

/-! ## Sessions, waveforms and races -/

/-- From the start of a pass, the line observed over its 50 intervals is WAVE(ADDR ++ CMD), level by level with the
duration armed, and within the pass it changes level 49 times (R105, R106, R166, which the spec derives; D33). -/
def Obligations.PassFollowsWave : Prop :=
  ∀ s : State, s.Inv → s.busy = true → s.pos = 0 →
    lineTrace 50 s = (wave s.codeword).map (fun x => (x.1, some x.2)) ∧
    levelChanges ((lineTrace 50 s).map Prod.fst) = 49

/-- A single-frame session that SEND starts in an Idle state takes exactly 50 * N_SINGLE expiries: it is busy before the
last one, and after it the block is Idle with the codeword, the bitstring and the mode kept (R167, which the spec
derives). -/
def Obligations.SingleFrameSessionEnds : Prop :=
  ∀ s : State, s.Inv → s.busy = false → ∃ t : State, exec .send s = .next t ∧
    (∀ k, k < 50 * s.params.nSingle → ∃ u : State, expiries k t = .next u ∧ u.busy = true) ∧
    ∃ u : State, expiries (50 * s.params.nSingle) t = .next u ∧ u.Idle ∧ SameCodeword s u ∧
      u.bits = encodeCodeword s.codeword ∧ u.mode = .single

/-- A continuous session never ends by itself, however many expiries pass, and a stop ends it wherever it is (R216). -/
def Obligations.ContinuousSessionNeverEnds : Prop :=
  ∀ s : State, s.Inv → s.busy = true → s.mode = .cont → ∀ k : Nat,
    ∃ t u : State, expiries k s = .next t ∧ t.busy = true ∧ t.mode = .cont ∧ t.tmrArmed = true ∧
      exec .stop t = .next u ∧ u.Idle

/-- A stop and an expiry that race converge: both orders answer OK and end in one state but for TMR_DUR, and in the same
state when the expiry is the last of a single-frame session (R187, which the spec derives). -/
def Obligations.StopAndExpiryConverge : Prop :=
  ∀ s : State, s.tmrArmed = true → ∃ a b c : State,
    exec .timerExpire s = .next a ∧ exec .stop a = .next b ∧ exec .stop s = .next c ∧
    c.Idle ∧ c.response = some ⟨.ok, []⟩ ∧ { b with tmrDur := c.tmrDur } = c ∧
    (s.pos = 49 → s.mode = .single → s.rem = 1 → b = c)

/-- A start or a set that races the last expiry of a session does not converge: after the expiry it succeeds, and before
it answers BUSY (R188, which the spec derives). -/
def Obligations.StartRaceDoesNotConverge : Prop :=
  ∀ (s : State) (i : Instr) (p : List Byte), s.busy = true → s.tmrArmed = true → s.pos = 49 → s.mode = .single →
    s.rem = 1 →
    (i = .send ∨ i = .sendCont ∨ (i = .setAddress p ∧ TriPayload p 10) ∨ (i = .setCommand p ∧ BinPayload p 2) ∨
      (i = .setCodeword p ∧ TriPayload p 12)) →
    (∃ a b : State, exec .timerExpire s = .next a ∧ exec i a = .next b ∧ b.response = some ⟨.ok, []⟩) ∧
    (∃ c : State, exec i s = .next c ∧ c.response = some ⟨.busy, []⟩)

/-! ## Encoding, decoding and the step -/

/-- A step runs the instruction that its input decodes to, when the agent may issue it; with no input left an armed timer
expires, and with the timer disarmed the block waits (R11, R74; the order of the agents is the model's choice, log 1). -/
def Obligations.StepRunsTheDecodedInstruction : Prop :=
  (∀ (s : State) (a : Agent) (r : Request) (rest : List Input) (i : Instr),
    s.inputs = .issue a r :: rest → decode r = .ok i → i.issuer = a → step s = exec i { s with inputs := rest }) ∧
  (∀ s : State, s.inputs = [] → s.tmrArmed = true → step s = exec .timerExpire s) ∧
  (∀ s : State, s.inputs = [] → s.tmrArmed = false → step s = .next s)

/-- Decode and encode agree on every well-formed instruction, with every operand at every value; and the three
pseudo-instructions decode to the TRIGGER they expand to (R71, R74, R83, the spec's own decisions D2 and D4, log 17). -/
def Obligations.DecodeOfEncode : Prop :=
  (∀ i : Instr, i.wf = true → decode (encode i) = .ok i) ∧
  decode (encode .stop) = .ok (.trigger 0) ∧ decode (encode .send) = .ok (.trigger 1) ∧
  decode (encode .sendCont) = .ok (.trigger 2)

/-- What decodes is well formed and keeps its header, and outside the reserved headers the request is the one that the
instruction encodes to (R71, R74, the spec's own decision D2). -/
def Obligations.EncodeOfDecode : Prop :=
  ∀ (r : Request) (i : Instr), decode r = .ok i →
    i.wf = true ∧ (encode i).op = r.op ∧ (headerKind r.op ≠ none → encode i = r)

/-- Decoding rejects exactly the requests whose payload has another kind than the header fixes (R70; log 7, the model's
choice of rejection). -/
def Obligations.DecodeRejectsWrongKind : Prop :=
  ∀ r : Request, (∃ e, decode r = .error e) ↔ r.wf = false

/-- The rows of the opcode table cover every header once, and the decoder answers the row's operation whatever the
payload (R71, R73, R74, the spec's own decision D2). -/
def Obligations.DecodeFollowsTheOpcodeTable : Prop :=
  ∀ (r : Request) (i : Instr), decode r = .ok i →
    (opcodeTable.filter (fun row => row.covers r.op)).map OpcodeRow.mnemonic = [i.mnemonic]

/-- Written-out requests decode to what they stand for (R71, R84). -/
def Obligations.WordsDecodeToTheirInstructions : Prop :=
  decode ⟨0b00000000, .none⟩ = .ok .getAddress ∧
  decode ⟨0b00000011, .str [0x31, 0x66]⟩ = .ok (.setCommand [0x31, 0x66]) ∧
  decode ⟨0b00000111, .int (-1)⟩ = .ok (.trigger (-1)) ∧
  decode ⟨0b00001000, .none⟩ = .ok .timerExpire ∧ decode ⟨0b00001001, .none⟩ = .ok .reset ∧
  decode ⟨0b00001101, .none⟩ = .ok (.reserved0C0F 0b01) ∧ decode ⟨0b10000001, .none⟩ = .ok (.reserved80FF 0b0000001)

/-- A request with a reserved header is refused, whatever its payload and the state: the step gives no next state, and
so does each reserved instruction (R73). -/
def Obligations.ReservedHeadersAreRefused : Prop :=
  (∀ (s : State) (r : Request) (rest : List Input), s.inputs = .issue .host r :: rest → headerKind r.op = none →
    step s = .refused (.reservedHeader r.op)) ∧
  (∀ (s : State) (i : Instr), headerKind (encode i).op = none → exec i s = .refused (.reservedHeader (encode i).op)) ∧
  (∀ op : Byte, headerKind op = none ↔ op = 0x06 ∨ 0x0A ≤ op.toNat)

/-- TIMER_EXPIRE is a step of the timer alone and only while the timer is armed, RESET of the platform alone, and a host
request with header 0x08 or 0x09 is refused (R72). -/
def Obligations.InternalHeadersAreNotTheHosts : Prop :=
  ∀ (s t : State) (a : Agent) (r : Request) (rest : List Input), s.inputs = .issue a r :: rest →
    (r.op = 0x08 → step s = .next t → a = .timer ∧ s.tmrArmed = true) ∧
    (r.op = 0x09 → step s = .next t → a = .platform) ∧
    (a = .host → r.op = 0x08 ∨ r.op = 0x09 → ∃ why, step s = .refused why)

/-- The alphabets: which bytes are legal in a set and which symbol they carry, and which byte a get answers (R76, R77,
R78; the byte values are the spec's own decision D34, log 17). -/
def Obligations.SymbolAlphabets : Prop :=
  (∀ (b : Byte) (x : Sym), tri b = some x ↔ Carries b x) ∧
  (∀ (b : Byte) (x : Sym), bin b = some x ↔ (b = 0x30 ∧ x = .s0) ∨ (b = 0x31 ∧ x = .s1)) ∧
  chr .s0 = 0x30 ∧ chr .s1 = 0x31 ∧ chr .sf = 0x66

/-- The packed layout: the codes of symbols, flags and durations, symbol i in bits 2i+1 and 2i of ADDR_P and CMD_P, flag
i in bit i of BITS_P, and no symbol or duration coded 0b11 (R38, R32, R9; the codes and the layout are the spec's own
decision D10, log 17). -/
def Obligations.PackedLayout : Prop :=
  (symCode .s0 = 0b00 ∧ symCode .s1 = 0b01 ∧ symCode .sf = 0b10) ∧
  (flagBit .narrow = false ∧ flagBit .wide = true) ∧
  (durCode .u1 = 0b00 ∧ durCode .u3 = 0b01 ∧ durCode .u30 = 0b10) ∧
  (∀ (v : Vector Sym 10) (i : Fin 10), (packAddr v).extractLsb' (2 * i.val) 2 = symCode v[i]) ∧
  (∀ (v : Vector Sym 2) (j : Fin 2), (packCmd v).extractLsb' (2 * j.val) 2 = symCode v[j]) ∧
  (∀ (v : Vector Flag 49) (i : Fin 49), (packBits v).getLsbD i.val = flagBit v[i]) ∧
  (∀ x : Sym, symCode x ≠ 0b11) ∧ (∀ d : Dur, durCode d ≠ 0b11)

/-- A string operand of printable characters assembles to its bytes (R82, the spec's own decision D4; quotes and
backslashes apart, log 16). -/
def Obligations.AssemblerReadsStrings : Prop :=
  ∀ p : List Byte, (∀ b ∈ p, 0x20 ≤ b.toNat ∧ b.toNat ≤ 0x7E ∧ b ≠ 0x22 ∧ b ≠ 0x5C) →
    assembleLine ("SET_ADDRESS  \"".toList ++ p.map (fun b => Char.ofNat b.toNat) ++ ['"']) = some (.setAddress p)

/-! ## The timed refinement -/

/-- A timed step is an untimed step of the block on one input, or leaves the block as it is (R191; the timed state is
log 14's). -/
def Obligations.TimedStepsAreUntimedSteps : Prop :=
  ∀ t u : Timed Time, timedStep t = .next u →
    (u = t ∧ t.machine.tmrArmed = false ∧ t.arrivals = []) ∨
    (t.machine.tmrArmed = true ∧ u.arrivals = t.arrivals ∧ stepOn timerInput t.machine = .next u.machine) ∨
    (∃ x : Time × Arrival, t.arrivals = x :: u.arrivals ∧ stepOn (arrivalInput x.2) t.machine = .next u.machine)

/-- At a tie the expiry goes first, and an arrival strictly before it goes first otherwise (R186, the spec's own decision
D17, log 17, for a host request at the same instant; that the same holds of a reset, log 15, and that an arrival between
a deadline and its handling goes first, log 14, are the model's own choices). -/
def Obligations.ExpiryGoesFirstAtATie : Prop :=
  ∀ (t : Timed Time) (instant : Time) (a : Arrival) (rest : List (Time × Arrival)), t.machine.tmrArmed = true →
    t.now ≤ instant → t.arrivals = (instant, a) :: rest →
    (t.deadline + t.timing.lStep ≤ instant → timedStep t = fireTimer t) ∧
    (instant < t.deadline + t.timing.lStep → timedStep t = serveArrival t instant a rest)

/-- Intervals do not drift: between two expiries of a session lies exactly the interval of the position between them,
whatever L_STEP is (R191, the spec's own decision D16, log 17). -/
def Obligations.IntervalsDoNotDrift : Prop :=
  ∀ t u w : Timed Time, t.machine.Inv → fireTimer t = .next u → fireTimer u = .next w →
    w.now = u.now + durUnits (interval u.machine.bits u.machine.pos) • u.timing.tNarrow

/-- A SEND that arrives at instant t0 at an Idle block with no other arrival ends after 50 * N_SINGLE expiries at the
instant t0 + 127 * N_SINGLE * T_NARROW + L_STEP, and the block is Idle, for all real durations (R167, R191, R222, which
the spec derives; D16; the timed state is log 14's). -/
def Obligations.SingleFrameSessionTakes127UnitsAPass : Prop :=
  ∀ (t : Timed Time) (t0 : Time), t.machine.Inv → t.machine.busy = false → t.now ≤ t0 →
    t.arrivals = [(t0, .request ⟨0x07, .int 1⟩)] →
    ∃ u : Timed Time, timedRun (1 + 50 * t.machine.params.nSingle) t = .next u ∧ u.machine.Idle ∧ u.arrivals = [] ∧
      u.now = t0 + (127 * t.machine.params.nSingle) • t.timing.tNarrow + t.timing.lStep

/-- A timed step keeps the invariant of the timed refinement, writes neither duration, and never goes back in time, for
all legal real durations (R6, R191, the spec's own decision D16; the timed state is log 14's). -/
def Obligations.TimedStepKeepsInvariant : Prop :=
  ∀ t u : Timed Time, t.Inv → timedStep t = .next u → u.Inv ∧ u.timing = t.timing ∧ t.now ≤ u.now

/-- An expiry is handled before the deadline that it arms, for all legal real durations (R217, R191; the deadlines are
the spec's own decision D16). -/
def Obligations.HandlingEndsBeforeNextDeadline : Prop :=
  ∀ t u : Timed Time, t.timing.Legal → fireTimer t = .next u → u.machine.tmrArmed = true → u.now < u.deadline
end

