-- ==== Sys2Proof/Laws/Decode.lean ====
section
/-! SUPPORT. The header map as equations (30_encoding.md R71), so that no proof evaluates the decoder on a header. -/

namespace Sys2Proof

@[simp] theorem decodeHeader_00 : decodeHeader 0x00#8 = .bare .getAddress := rfl
@[simp] theorem decodeHeader_01 : decodeHeader 0x01#8 = .set .address := rfl
@[simp] theorem decodeHeader_02 : decodeHeader 0x02#8 = .bare .getCommand := rfl
@[simp] theorem decodeHeader_03 : decodeHeader 0x03#8 = .set .command := rfl
@[simp] theorem decodeHeader_04 : decodeHeader 0x04#8 = .bare .getCodeword := rfl
@[simp] theorem decodeHeader_05 : decodeHeader 0x05#8 = .set .codeword := rfl
@[simp] theorem decodeHeader_06 : decodeHeader 0x06#8 = .reserved .reserved06 := rfl
@[simp] theorem decodeHeader_07 : decodeHeader 0x07#8 = .trigger := rfl
@[simp] theorem decodeHeader_08 : decodeHeader 0x08#8 = .bare .timerExpire := rfl
@[simp] theorem decodeHeader_09 : decodeHeader 0x09#8 = .bare .reset := rfl

/-- A header decodes to a reserved row exactly when it fixes no payload kind (R71, R73). -/
theorem decodeHeader_reserved_iff (op : Byte) :
    headerKind op = none ↔ ∃ i, decodeHeader op = .reserved i := by
  have key : ∀ op : Byte, (headerKind op).isNone = (match decodeHeader op with | .reserved _ => true | _ => false) := by
    decide
  have h := key op
  rw [← Option.isNone_iff_eq_none, h]
  cases decodeHeader op <;> simp

/-- What a reserved header decodes to keeps the header, and is for the host to be refused (R73). -/
theorem reserved_row_of_header (op : Byte) (i : Instr) (h : decodeHeader op = .reserved i) :
    (encode i).op = op ∧ i.issuer = .host ∧ i.wf = true := by
  have key : ∀ op : Byte,
      (match decodeHeader op with
        | .reserved i => decide ((encode i).op = op ∧ i.issuer = .host ∧ i.wf = true)
        | _ => true) = true := by decide
  have h2 := key op
  rw [h] at h2
  exact of_decide_eq_true h2

end Sys2Proof
end

