-- ==== Sys2Proof/Laws/State.lean ====
section
/-! SUPPORT. What each update of State leaves in each field: one lemma per field per update, so that no proof unfolds
a record update. -/

namespace Sys2Proof.Machine

@[simp] theorem State.respond_addr (st : Status) (d : List Byte) (s : State) : (s.respond st d).addr = s.addr := rfl
@[simp] theorem State.respond_cmd (st : Status) (d : List Byte) (s : State) : (s.respond st d).cmd = s.cmd := rfl
@[simp] theorem State.respond_bits (st : Status) (d : List Byte) (s : State) : (s.respond st d).bits = s.bits := rfl
@[simp] theorem State.respond_busy (st : Status) (d : List Byte) (s : State) : (s.respond st d).busy = s.busy := rfl
@[simp] theorem State.respond_mode (st : Status) (d : List Byte) (s : State) : (s.respond st d).mode = s.mode := rfl
@[simp] theorem State.respond_rem (st : Status) (d : List Byte) (s : State) : (s.respond st d).rem = s.rem := rfl
@[simp] theorem State.respond_pos (st : Status) (d : List Byte) (s : State) : (s.respond st d).pos = s.pos := rfl
@[simp] theorem State.respond_line (st : Status) (d : List Byte) (s : State) : (s.respond st d).line = s.line := rfl
@[simp] theorem State.respond_tmrArmed (st : Status) (d : List Byte) (s : State) : (s.respond st d).tmrArmed = s.tmrArmed := rfl
@[simp] theorem State.respond_tmrDur (st : Status) (d : List Byte) (s : State) : (s.respond st d).tmrDur = s.tmrDur := rfl
@[simp] theorem State.respond_params (st : Status) (d : List Byte) (s : State) : (s.respond st d).params = s.params := rfl
@[simp] theorem State.respond_inputs (st : Status) (d : List Byte) (s : State) : (s.respond st d).inputs = s.inputs := rfl
@[simp] theorem State.respond_response (st : Status) (d : List Byte) (s : State) : (s.respond st d).response = some ⟨st, d⟩ := rfl
@[simp] theorem State.respond_freeIdx (st : Status) (d : List Byte) (s : State) : (s.respond st d).freeIdx = s.freeIdx := rfl

@[simp] theorem State.silent_addr (s : State) : (s.silent).addr = s.addr := rfl
@[simp] theorem State.silent_cmd (s : State) : (s.silent).cmd = s.cmd := rfl
@[simp] theorem State.silent_bits (s : State) : (s.silent).bits = s.bits := rfl
@[simp] theorem State.silent_busy (s : State) : (s.silent).busy = s.busy := rfl
@[simp] theorem State.silent_mode (s : State) : (s.silent).mode = s.mode := rfl
@[simp] theorem State.silent_rem (s : State) : (s.silent).rem = s.rem := rfl
@[simp] theorem State.silent_pos (s : State) : (s.silent).pos = s.pos := rfl
@[simp] theorem State.silent_line (s : State) : (s.silent).line = s.line := rfl
@[simp] theorem State.silent_tmrArmed (s : State) : (s.silent).tmrArmed = s.tmrArmed := rfl
@[simp] theorem State.silent_tmrDur (s : State) : (s.silent).tmrDur = s.tmrDur := rfl
@[simp] theorem State.silent_params (s : State) : (s.silent).params = s.params := rfl
@[simp] theorem State.silent_inputs (s : State) : (s.silent).inputs = s.inputs := rfl
@[simp] theorem State.silent_response (s : State) : (s.silent).response = none := rfl
@[simp] theorem State.silent_freeIdx (s : State) : (s.silent).freeIdx = s.freeIdx := rfl

@[simp] theorem State.arm_addr (d : Dur) (s : State) : (s.arm d).addr = s.addr := rfl
@[simp] theorem State.arm_cmd (d : Dur) (s : State) : (s.arm d).cmd = s.cmd := rfl
@[simp] theorem State.arm_bits (d : Dur) (s : State) : (s.arm d).bits = s.bits := rfl
@[simp] theorem State.arm_busy (d : Dur) (s : State) : (s.arm d).busy = s.busy := rfl
@[simp] theorem State.arm_mode (d : Dur) (s : State) : (s.arm d).mode = s.mode := rfl
@[simp] theorem State.arm_rem (d : Dur) (s : State) : (s.arm d).rem = s.rem := rfl
@[simp] theorem State.arm_pos (d : Dur) (s : State) : (s.arm d).pos = s.pos := rfl
@[simp] theorem State.arm_line (d : Dur) (s : State) : (s.arm d).line = s.line := rfl
@[simp] theorem State.arm_tmrArmed (d : Dur) (s : State) : (s.arm d).tmrArmed = true := rfl
@[simp] theorem State.arm_tmrDur (d : Dur) (s : State) : (s.arm d).tmrDur = d := rfl
@[simp] theorem State.arm_params (d : Dur) (s : State) : (s.arm d).params = s.params := rfl
@[simp] theorem State.arm_inputs (d : Dur) (s : State) : (s.arm d).inputs = s.inputs := rfl
@[simp] theorem State.arm_response (d : Dur) (s : State) : (s.arm d).response = s.response := rfl
@[simp] theorem State.arm_freeIdx (d : Dur) (s : State) : (s.arm d).freeIdx = s.freeIdx := rfl

@[simp] theorem State.disarm_addr (s : State) : (s.disarm).addr = s.addr := rfl
@[simp] theorem State.disarm_cmd (s : State) : (s.disarm).cmd = s.cmd := rfl
@[simp] theorem State.disarm_bits (s : State) : (s.disarm).bits = s.bits := rfl
@[simp] theorem State.disarm_busy (s : State) : (s.disarm).busy = s.busy := rfl
@[simp] theorem State.disarm_mode (s : State) : (s.disarm).mode = s.mode := rfl
@[simp] theorem State.disarm_rem (s : State) : (s.disarm).rem = s.rem := rfl
@[simp] theorem State.disarm_pos (s : State) : (s.disarm).pos = s.pos := rfl
@[simp] theorem State.disarm_line (s : State) : (s.disarm).line = s.line := rfl
@[simp] theorem State.disarm_tmrArmed (s : State) : (s.disarm).tmrArmed = false := rfl
@[simp] theorem State.disarm_tmrDur (s : State) : (s.disarm).tmrDur = s.tmrDur := rfl
@[simp] theorem State.disarm_params (s : State) : (s.disarm).params = s.params := rfl
@[simp] theorem State.disarm_inputs (s : State) : (s.disarm).inputs = s.inputs := rfl
@[simp] theorem State.disarm_response (s : State) : (s.disarm).response = s.response := rfl
@[simp] theorem State.disarm_freeIdx (s : State) : (s.disarm).freeIdx = s.freeIdx := rfl

@[simp] theorem State.acquireGuard_addr (s : State) : (s.acquireGuard).addr = s.addr := rfl
@[simp] theorem State.acquireGuard_cmd (s : State) : (s.acquireGuard).cmd = s.cmd := rfl
@[simp] theorem State.acquireGuard_bits (s : State) : (s.acquireGuard).bits = s.bits := rfl
@[simp] theorem State.acquireGuard_busy (s : State) : (s.acquireGuard).busy = true := rfl
@[simp] theorem State.acquireGuard_mode (s : State) : (s.acquireGuard).mode = s.mode := rfl
@[simp] theorem State.acquireGuard_rem (s : State) : (s.acquireGuard).rem = s.rem := rfl
@[simp] theorem State.acquireGuard_pos (s : State) : (s.acquireGuard).pos = s.pos := rfl
@[simp] theorem State.acquireGuard_line (s : State) : (s.acquireGuard).line = s.line := rfl
@[simp] theorem State.acquireGuard_tmrArmed (s : State) : (s.acquireGuard).tmrArmed = s.tmrArmed := rfl
@[simp] theorem State.acquireGuard_tmrDur (s : State) : (s.acquireGuard).tmrDur = s.tmrDur := rfl
@[simp] theorem State.acquireGuard_params (s : State) : (s.acquireGuard).params = s.params := rfl
@[simp] theorem State.acquireGuard_inputs (s : State) : (s.acquireGuard).inputs = s.inputs := rfl
@[simp] theorem State.acquireGuard_response (s : State) : (s.acquireGuard).response = s.response := rfl
@[simp] theorem State.acquireGuard_freeIdx (s : State) : (s.acquireGuard).freeIdx = s.freeIdx := rfl

@[simp] theorem State.releaseGuard_addr (s : State) : (s.releaseGuard).addr = s.addr := rfl
@[simp] theorem State.releaseGuard_cmd (s : State) : (s.releaseGuard).cmd = s.cmd := rfl
@[simp] theorem State.releaseGuard_bits (s : State) : (s.releaseGuard).bits = s.bits := rfl
@[simp] theorem State.releaseGuard_busy (s : State) : (s.releaseGuard).busy = false := rfl
@[simp] theorem State.releaseGuard_mode (s : State) : (s.releaseGuard).mode = s.mode := rfl
@[simp] theorem State.releaseGuard_rem (s : State) : (s.releaseGuard).rem = s.rem := rfl
@[simp] theorem State.releaseGuard_pos (s : State) : (s.releaseGuard).pos = s.pos := rfl
@[simp] theorem State.releaseGuard_line (s : State) : (s.releaseGuard).line = s.line := rfl
@[simp] theorem State.releaseGuard_tmrArmed (s : State) : (s.releaseGuard).tmrArmed = s.tmrArmed := rfl
@[simp] theorem State.releaseGuard_tmrDur (s : State) : (s.releaseGuard).tmrDur = s.tmrDur := rfl
@[simp] theorem State.releaseGuard_params (s : State) : (s.releaseGuard).params = s.params := rfl
@[simp] theorem State.releaseGuard_inputs (s : State) : (s.releaseGuard).inputs = s.inputs := rfl
@[simp] theorem State.releaseGuard_response (s : State) : (s.releaseGuard).response = s.response := rfl
@[simp] theorem State.releaseGuard_freeIdx (s : State) : (s.releaseGuard).freeIdx = s.freeIdx := rfl

@[simp] theorem State.driveLine_addr (l : Level) (s : State) : (s.driveLine l).addr = s.addr := rfl
@[simp] theorem State.driveLine_cmd (l : Level) (s : State) : (s.driveLine l).cmd = s.cmd := rfl
@[simp] theorem State.driveLine_bits (l : Level) (s : State) : (s.driveLine l).bits = s.bits := rfl
@[simp] theorem State.driveLine_busy (l : Level) (s : State) : (s.driveLine l).busy = s.busy := rfl
@[simp] theorem State.driveLine_mode (l : Level) (s : State) : (s.driveLine l).mode = s.mode := rfl
@[simp] theorem State.driveLine_rem (l : Level) (s : State) : (s.driveLine l).rem = s.rem := rfl
@[simp] theorem State.driveLine_pos (l : Level) (s : State) : (s.driveLine l).pos = s.pos := rfl
@[simp] theorem State.driveLine_line (l : Level) (s : State) : (s.driveLine l).line = l := rfl
@[simp] theorem State.driveLine_tmrArmed (l : Level) (s : State) : (s.driveLine l).tmrArmed = s.tmrArmed := rfl
@[simp] theorem State.driveLine_tmrDur (l : Level) (s : State) : (s.driveLine l).tmrDur = s.tmrDur := rfl
@[simp] theorem State.driveLine_params (l : Level) (s : State) : (s.driveLine l).params = s.params := rfl
@[simp] theorem State.driveLine_inputs (l : Level) (s : State) : (s.driveLine l).inputs = s.inputs := rfl
@[simp] theorem State.driveLine_response (l : Level) (s : State) : (s.driveLine l).response = s.response := rfl
@[simp] theorem State.driveLine_freeIdx (l : Level) (s : State) : (s.driveLine l).freeIdx = s.freeIdx := rfl

@[simp] theorem State.setAddr_addr (v : Vector Sym 10) (s : State) : (s.setAddr v).addr = v := rfl
@[simp] theorem State.setAddr_cmd (v : Vector Sym 10) (s : State) : (s.setAddr v).cmd = s.cmd := rfl
@[simp] theorem State.setAddr_bits (v : Vector Sym 10) (s : State) : (s.setAddr v).bits = s.bits := rfl
@[simp] theorem State.setAddr_busy (v : Vector Sym 10) (s : State) : (s.setAddr v).busy = s.busy := rfl
@[simp] theorem State.setAddr_mode (v : Vector Sym 10) (s : State) : (s.setAddr v).mode = s.mode := rfl
@[simp] theorem State.setAddr_rem (v : Vector Sym 10) (s : State) : (s.setAddr v).rem = s.rem := rfl
@[simp] theorem State.setAddr_pos (v : Vector Sym 10) (s : State) : (s.setAddr v).pos = s.pos := rfl
@[simp] theorem State.setAddr_line (v : Vector Sym 10) (s : State) : (s.setAddr v).line = s.line := rfl
@[simp] theorem State.setAddr_tmrArmed (v : Vector Sym 10) (s : State) : (s.setAddr v).tmrArmed = s.tmrArmed := rfl
@[simp] theorem State.setAddr_tmrDur (v : Vector Sym 10) (s : State) : (s.setAddr v).tmrDur = s.tmrDur := rfl
@[simp] theorem State.setAddr_params (v : Vector Sym 10) (s : State) : (s.setAddr v).params = s.params := rfl
@[simp] theorem State.setAddr_inputs (v : Vector Sym 10) (s : State) : (s.setAddr v).inputs = s.inputs := rfl
@[simp] theorem State.setAddr_response (v : Vector Sym 10) (s : State) : (s.setAddr v).response = s.response := rfl
@[simp] theorem State.setAddr_freeIdx (v : Vector Sym 10) (s : State) : (s.setAddr v).freeIdx = s.freeIdx := rfl

@[simp] theorem State.setCmd_addr (v : Vector Sym 2) (s : State) : (s.setCmd v).addr = s.addr := rfl
@[simp] theorem State.setCmd_cmd (v : Vector Sym 2) (s : State) : (s.setCmd v).cmd = v := rfl
@[simp] theorem State.setCmd_bits (v : Vector Sym 2) (s : State) : (s.setCmd v).bits = s.bits := rfl
@[simp] theorem State.setCmd_busy (v : Vector Sym 2) (s : State) : (s.setCmd v).busy = s.busy := rfl
@[simp] theorem State.setCmd_mode (v : Vector Sym 2) (s : State) : (s.setCmd v).mode = s.mode := rfl
@[simp] theorem State.setCmd_rem (v : Vector Sym 2) (s : State) : (s.setCmd v).rem = s.rem := rfl
@[simp] theorem State.setCmd_pos (v : Vector Sym 2) (s : State) : (s.setCmd v).pos = s.pos := rfl
@[simp] theorem State.setCmd_line (v : Vector Sym 2) (s : State) : (s.setCmd v).line = s.line := rfl
@[simp] theorem State.setCmd_tmrArmed (v : Vector Sym 2) (s : State) : (s.setCmd v).tmrArmed = s.tmrArmed := rfl
@[simp] theorem State.setCmd_tmrDur (v : Vector Sym 2) (s : State) : (s.setCmd v).tmrDur = s.tmrDur := rfl
@[simp] theorem State.setCmd_params (v : Vector Sym 2) (s : State) : (s.setCmd v).params = s.params := rfl
@[simp] theorem State.setCmd_inputs (v : Vector Sym 2) (s : State) : (s.setCmd v).inputs = s.inputs := rfl
@[simp] theorem State.setCmd_response (v : Vector Sym 2) (s : State) : (s.setCmd v).response = s.response := rfl
@[simp] theorem State.setCmd_freeIdx (v : Vector Sym 2) (s : State) : (s.setCmd v).freeIdx = s.freeIdx := rfl

@[simp] theorem State.setCodeword_addr (cw : Vector Sym 12) (s : State) : (s.setCodeword cw).addr = addressOf cw := rfl
@[simp] theorem State.setCodeword_cmd (cw : Vector Sym 12) (s : State) : (s.setCodeword cw).cmd = commandOf cw := rfl
@[simp] theorem State.setCodeword_bits (cw : Vector Sym 12) (s : State) : (s.setCodeword cw).bits = s.bits := rfl
@[simp] theorem State.setCodeword_busy (cw : Vector Sym 12) (s : State) : (s.setCodeword cw).busy = s.busy := rfl
@[simp] theorem State.setCodeword_mode (cw : Vector Sym 12) (s : State) : (s.setCodeword cw).mode = s.mode := rfl
@[simp] theorem State.setCodeword_rem (cw : Vector Sym 12) (s : State) : (s.setCodeword cw).rem = s.rem := rfl
@[simp] theorem State.setCodeword_pos (cw : Vector Sym 12) (s : State) : (s.setCodeword cw).pos = s.pos := rfl
@[simp] theorem State.setCodeword_line (cw : Vector Sym 12) (s : State) : (s.setCodeword cw).line = s.line := rfl
@[simp] theorem State.setCodeword_tmrArmed (cw : Vector Sym 12) (s : State) : (s.setCodeword cw).tmrArmed = s.tmrArmed := rfl
@[simp] theorem State.setCodeword_tmrDur (cw : Vector Sym 12) (s : State) : (s.setCodeword cw).tmrDur = s.tmrDur := rfl
@[simp] theorem State.setCodeword_params (cw : Vector Sym 12) (s : State) : (s.setCodeword cw).params = s.params := rfl
@[simp] theorem State.setCodeword_inputs (cw : Vector Sym 12) (s : State) : (s.setCodeword cw).inputs = s.inputs := rfl
@[simp] theorem State.setCodeword_response (cw : Vector Sym 12) (s : State) : (s.setCodeword cw).response = s.response := rfl
@[simp] theorem State.setCodeword_freeIdx (cw : Vector Sym 12) (s : State) : (s.setCodeword cw).freeIdx = s.freeIdx := rfl

@[simp] theorem State.setCounts_addr (p : Fin 50) (n : Nat) (s : State) : (s.setCounts p n).addr = s.addr := rfl
@[simp] theorem State.setCounts_cmd (p : Fin 50) (n : Nat) (s : State) : (s.setCounts p n).cmd = s.cmd := rfl
@[simp] theorem State.setCounts_bits (p : Fin 50) (n : Nat) (s : State) : (s.setCounts p n).bits = s.bits := rfl
@[simp] theorem State.setCounts_busy (p : Fin 50) (n : Nat) (s : State) : (s.setCounts p n).busy = s.busy := rfl
@[simp] theorem State.setCounts_mode (p : Fin 50) (n : Nat) (s : State) : (s.setCounts p n).mode = s.mode := rfl
@[simp] theorem State.setCounts_rem (p : Fin 50) (n : Nat) (s : State) : (s.setCounts p n).rem = n := rfl
@[simp] theorem State.setCounts_pos (p : Fin 50) (n : Nat) (s : State) : (s.setCounts p n).pos = p := rfl
@[simp] theorem State.setCounts_line (p : Fin 50) (n : Nat) (s : State) : (s.setCounts p n).line = s.line := rfl
@[simp] theorem State.setCounts_tmrArmed (p : Fin 50) (n : Nat) (s : State) : (s.setCounts p n).tmrArmed = s.tmrArmed := rfl
@[simp] theorem State.setCounts_tmrDur (p : Fin 50) (n : Nat) (s : State) : (s.setCounts p n).tmrDur = s.tmrDur := rfl
@[simp] theorem State.setCounts_params (p : Fin 50) (n : Nat) (s : State) : (s.setCounts p n).params = s.params := rfl
@[simp] theorem State.setCounts_inputs (p : Fin 50) (n : Nat) (s : State) : (s.setCounts p n).inputs = s.inputs := rfl
@[simp] theorem State.setCounts_response (p : Fin 50) (n : Nat) (s : State) : (s.setCounts p n).response = s.response := rfl
@[simp] theorem State.setCounts_freeIdx (p : Fin 50) (n : Nat) (s : State) : (s.setCounts p n).freeIdx = s.freeIdx := rfl

@[simp] theorem State.freshUnspecified_addr (s : State) : (s.freshUnspecified).addr = s.addr := rfl
@[simp] theorem State.freshUnspecified_cmd (s : State) : (s.freshUnspecified).cmd = s.cmd := rfl
@[simp] theorem State.freshUnspecified_bits (s : State) : (s.freshUnspecified).bits = Config.freeBits s.freeIdx := rfl
@[simp] theorem State.freshUnspecified_busy (s : State) : (s.freshUnspecified).busy = s.busy := rfl
@[simp] theorem State.freshUnspecified_mode (s : State) : (s.freshUnspecified).mode = s.mode := rfl
@[simp] theorem State.freshUnspecified_rem (s : State) : (s.freshUnspecified).rem = s.rem := rfl
@[simp] theorem State.freshUnspecified_pos (s : State) : (s.freshUnspecified).pos = s.pos := rfl
@[simp] theorem State.freshUnspecified_line (s : State) : (s.freshUnspecified).line = s.line := rfl
@[simp] theorem State.freshUnspecified_tmrArmed (s : State) : (s.freshUnspecified).tmrArmed = s.tmrArmed := rfl
@[simp] theorem State.freshUnspecified_tmrDur (s : State) : (s.freshUnspecified).tmrDur = Config.freeDur s.freeIdx := rfl
@[simp] theorem State.freshUnspecified_params (s : State) : (s.freshUnspecified).params = s.params := rfl
@[simp] theorem State.freshUnspecified_inputs (s : State) : (s.freshUnspecified).inputs = s.inputs := rfl
@[simp] theorem State.freshUnspecified_response (s : State) : (s.freshUnspecified).response = s.response := rfl
@[simp] theorem State.freshUnspecified_freeIdx (s : State) : (s.freshUnspecified).freeIdx = s.freeIdx + 1 := rfl

@[simp] theorem State.dropInput_addr (s : State) : (s.dropInput).addr = s.addr := rfl
@[simp] theorem State.dropInput_cmd (s : State) : (s.dropInput).cmd = s.cmd := rfl
@[simp] theorem State.dropInput_bits (s : State) : (s.dropInput).bits = s.bits := rfl
@[simp] theorem State.dropInput_busy (s : State) : (s.dropInput).busy = s.busy := rfl
@[simp] theorem State.dropInput_mode (s : State) : (s.dropInput).mode = s.mode := rfl
@[simp] theorem State.dropInput_rem (s : State) : (s.dropInput).rem = s.rem := rfl
@[simp] theorem State.dropInput_pos (s : State) : (s.dropInput).pos = s.pos := rfl
@[simp] theorem State.dropInput_line (s : State) : (s.dropInput).line = s.line := rfl
@[simp] theorem State.dropInput_tmrArmed (s : State) : (s.dropInput).tmrArmed = s.tmrArmed := rfl
@[simp] theorem State.dropInput_tmrDur (s : State) : (s.dropInput).tmrDur = s.tmrDur := rfl
@[simp] theorem State.dropInput_params (s : State) : (s.dropInput).params = s.params := rfl
@[simp] theorem State.dropInput_inputs (s : State) : (s.dropInput).inputs = s.inputs.tail := rfl
@[simp] theorem State.dropInput_response (s : State) : (s.dropInput).response = s.response := rfl
@[simp] theorem State.dropInput_freeIdx (s : State) : (s.dropInput).freeIdx = s.freeIdx := rfl

@[simp] theorem State.pushInput_addr (i : Input) (s : State) : (s.pushInput i).addr = s.addr := rfl
@[simp] theorem State.pushInput_cmd (i : Input) (s : State) : (s.pushInput i).cmd = s.cmd := rfl
@[simp] theorem State.pushInput_bits (i : Input) (s : State) : (s.pushInput i).bits = s.bits := rfl
@[simp] theorem State.pushInput_busy (i : Input) (s : State) : (s.pushInput i).busy = s.busy := rfl
@[simp] theorem State.pushInput_mode (i : Input) (s : State) : (s.pushInput i).mode = s.mode := rfl
@[simp] theorem State.pushInput_rem (i : Input) (s : State) : (s.pushInput i).rem = s.rem := rfl
@[simp] theorem State.pushInput_pos (i : Input) (s : State) : (s.pushInput i).pos = s.pos := rfl
@[simp] theorem State.pushInput_line (i : Input) (s : State) : (s.pushInput i).line = s.line := rfl
@[simp] theorem State.pushInput_tmrArmed (i : Input) (s : State) : (s.pushInput i).tmrArmed = s.tmrArmed := rfl
@[simp] theorem State.pushInput_tmrDur (i : Input) (s : State) : (s.pushInput i).tmrDur = s.tmrDur := rfl
@[simp] theorem State.pushInput_params (i : Input) (s : State) : (s.pushInput i).params = s.params := rfl
@[simp] theorem State.pushInput_inputs (i : Input) (s : State) : (s.pushInput i).inputs = i :: s.inputs := rfl
@[simp] theorem State.pushInput_response (i : Input) (s : State) : (s.pushInput i).response = s.response := rfl
@[simp] theorem State.pushInput_freeIdx (i : Input) (s : State) : (s.pushInput i).freeIdx = s.freeIdx := rfl

@[simp] theorem State.guardHeld_eq_busy (s : State) : s.guardHeld = s.busy := rfl

end Sys2Proof.Machine
end

