-- ==== Sys2Proof/Laws/Operands.lean ====
section
/-! SUPPORT. The operand forms: what a payload decodes to, and what a get renders (R75 to R78, R120). -/

namespace Sys2Proof.Machine

/-- A payload decodes to symbols exactly when each byte decodes to its symbol. -/
theorem decodeSyms_eq_some_iff (alphabet : Byte → Option Sym) (p : List Byte) (xs : List Sym) :
    decodeSyms alphabet p = some xs ↔ p.map alphabet = xs.map some := by
  induction p generalizing xs with
  | nil => cases xs <;> simp [decodeSyms]
  | cons b bs ih =>
    rw [decodeSyms]
    cases hb : alphabet b <;> cases hs : decodeSyms alphabet bs <;> cases xs <;> simp_all

/-- A payload that decodes has one symbol per byte. -/
theorem decodeSyms_length {alphabet : Byte → Option Sym} {p : List Byte} {xs : List Sym}
    (h : decodeSyms alphabet p = some xs) : xs.length = p.length := by
  have := congrArg List.length ((decodeSyms_eq_some_iff alphabet p xs).1 h)
  simpa using this.symm

/-- A payload decodes to a field exactly when its bytes decode to the field's symbols, in order. -/
theorem decodeField_eq_some_iff (alphabet : Byte → Option Sym) (len : Nat) (p : List Byte) (v : Vector Sym len) :
    decodeField alphabet len p = some v ↔ p.map alphabet = v.toList.map some := by
  rw [← decodeSyms_eq_some_iff, decodeField]
  constructor
  · intro h
    split at h
    · split at h
      · cases h; assumption
      · cases h
    · cases h
  · intro h
    have hl : v.toList.length = len := by simp
    simp only [h, hl, dite_true]
    rfl

/-- A payload decodes to no field exactly when its length is wrong or some byte is illegal. -/
theorem decodeField_eq_none_iff (alphabet : Byte → Option Sym) (len : Nat) (p : List Byte) :
    decodeField alphabet len p = none ↔ ¬(p.length = len ∧ ∀ b ∈ p, (alphabet b).isSome) := by
  have key : ∀ q : List Byte, (decodeSyms alphabet q).isSome ↔ ∀ b ∈ q, (alphabet b).isSome := by
    intro q
    induction q with
    | nil => simp [decodeSyms]
    | cons b bs ih =>
      rw [decodeSyms]
      cases hb : alphabet b <;> cases hs : decodeSyms alphabet bs <;> simp_all
  rw [decodeField]
  cases hs : decodeSyms alphabet p with
  | none =>
    have := (key p).not.1 (by simp [hs])
    simp only [true_iff]
    exact fun h => this h.2
  | some xs =>
    have hall := (key p).1 (by simp [hs])
    have hlen := decodeSyms_length hs
    by_cases h : xs.length = len
    · simp only [h, dite_true, reduceCtorEq, false_iff, not_not]
      exact ⟨hlen ▸ h, hall⟩
    · simp only [h, dite_false, true_iff]
      exact fun hc => h (hlen.trans hc.1)

/-- `valid_tri` (R120) is exactly what the decoding of a field tests. -/
theorem validTri_iff_decodes (p : List Byte) (len : Nat) :
    validTri p len = true ↔ (decodeField tri len p).isSome := by
  rw [← not_iff_not, Option.not_isSome_iff_eq_none, decodeField_eq_none_iff]
  simp [validTri, legalTri]

/-- `valid_bin` (R120) is exactly what the decoding of a field tests. -/
theorem validBin_iff_decodes (p : List Byte) (len : Nat) :
    validBin p len = true ↔ (decodeField bin len p).isSome := by
  rw [← not_iff_not, Option.not_isSome_iff_eq_none, decodeField_eq_none_iff]
  simp [validBin, legalBin]

/-- What a get renders reads back as the symbol (R76, R78). -/
theorem tri_chr (x : Sym) : tri (chr x) = some x := by cases x <;> rfl

/-- A rendered field has one byte per symbol. -/
@[simp] theorem renderField_length {len : Nat} (v : Vector Sym len) : (renderField v).length = len := by
  simp [renderField]

/-- Byte `i` of a rendered field is the character of symbol `i` (R52). -/
theorem renderField_getElem? {len : Nat} (v : Vector Sym len) (i : Nat) (h : i < len) :
    (renderField v)[i]? = some (chr v[i]) := by
  simp [renderField, h]

/-- Address and command come back out of a codeword (R23). -/
@[simp] theorem addressOf_codewordOf (a : Vector Sym 10) (c : Vector Sym 2) : addressOf (codewordOf a c) = a := by
  ext i hi
  simp [addressOf, codewordOf]

@[simp] theorem commandOf_codewordOf (a : Vector Sym 10) (c : Vector Sym 2) : commandOf (codewordOf a c) = c := by
  ext i hi
  simp [commandOf, codewordOf]

/-- A codeword is its address and its command (R23). -/
@[simp] theorem codewordOf_parts (cw : Vector Sym 12) : codewordOf (addressOf cw) (commandOf cw) = cw := by
  ext i hi
  by_cases h : i < 10
  · simp [codewordOf, addressOf, h]
  · have : 10 + (i - 10) = i := by omega
    simp [codewordOf, commandOf, h, this]

/-- Codes read back (R38, R32). -/
theorem symOfCode_symCode (x : Sym) : symOfCode (symCode x) = some x := by cases x <;> rfl

theorem durOfCode_durCode (d : Dur) : durOfCode (durCode d) = some d := by cases d <;> rfl

end Sys2Proof.Machine
end

