-- ==== Sys2Proof/Laws/Ops.lean ====
section
/-! SUPPORT. What each shared operation, and the step, can answer: one lemma per operation, which later proofs cite
instead of unfolding it. -/

namespace Sys2Proof.Machine

/-- A set answers in one of three ways (R183). -/
theorem setField_cases {α : Type} (field : Option α) (write : α → State → State) (s : State) :
    (field = none ∧ setField field write s = .next (s.respond .invalidArgument [])) ∨
    (∃ v, field = some v ∧ s.busy = true ∧ setField field write s = .next (s.respond .busy [])) ∨
    (∃ v, field = some v ∧ s.busy = false ∧ setField field write s = .next ((write v s).respond .ok [])) := by
  cases field with
  | none => exact .inl ⟨rfl, rfl⟩
  | some v =>
    cases hb : s.busy with
    | true => exact .inr (.inl ⟨v, rfl, rfl, by simp [setField, hb, raise]⟩)
    | false => exact .inr (.inr ⟨v, rfl, rfl, by simp [setField, hb, finishOk]⟩)

/-- A start answers in one of two ways (R142). -/
theorem start_cases (m : Mode) (s : State) :
    (s.busy = true ∧ start m s = .next (s.respond .busy [])) ∨
    (s.busy = false ∧ start m s = .next ((s.beginSession m).respond .ok [])) := by
  cases hb : s.busy with
  | true => exact .inl ⟨rfl, by simp [start, hb, raise]⟩
  | false => exact .inr ⟨rfl, by simp [start, hb, finishOk]⟩

/-- A trigger is a stop, a start or an invalid argument (R140). -/
theorem execTrigger_cases (v : Int) (s : State) :
    (v = 0 ∧ execTrigger v s = stopSession s) ∨ (v = 1 ∧ execTrigger v s = start .single s) ∨
    (v = 2 ∧ execTrigger v s = start .cont s) ∨
    (v ≠ 0 ∧ v ≠ 1 ∧ v ≠ 2 ∧ execTrigger v s = raise .invalidArgument s) := by
  unfold execTrigger
  split_ifs <;> simp_all

/-- Inside a pass the position advances by one (R161, step 5). -/
theorem advance_inside (s : State) (h : s.pos.val < 48) :
    s.advance = (s.setCounts ⟨s.pos.val + 1, by omega⟩ s.rem).arm (flagDur (s.bits[s.pos.val + 1]'(by omega))) := by
  rw [State.advance, dif_neg (by omega), dif_neg (by omega)]

/-- After the last flag comes the sync interval (R161, step 4). -/
theorem advance_sync (s : State) (h : s.pos.val = 48) : s.advance = (s.setCounts 49 s.rem).arm syncDur := by
  rw [State.advance, dif_neg (by omega), dif_pos (by omega)]

/-- After the sync interval the pass ends (R161, step 3). -/
theorem advance_last (s : State) (h : s.pos.val = 49) : s.advance = s.endPass := by
  rw [State.advance, dif_pos (by omega)]

/-- A pass ends in a completion or in the next pass (R161, step 3). -/
theorem endPass_cases (s : State) :
    (s.mode = .single ∧ s.rem - 1 = 0 ∧ s.endPass = s.completeSession) ∨
    (s.mode = .single ∧ s.rem - 1 ≠ 0 ∧ s.endPass = s.repeatPass (s.rem - 1)) ∨
    (s.mode = .cont ∧ s.endPass = s.repeatPass s.rem) := by
  unfold State.endPass
  cases hm : s.mode with
  | single => by_cases h : s.rem - 1 = 0 <;> simp [h]
  | cont => simp

/-- The timer steps exactly when it is armed (R160). -/
theorem execTimerExpire_cases (s : State) :
    (s.tmrArmed = true ∧ execTimerExpire s = .next s.expire) ∨
    (s.tmrArmed = false ∧ execTimerExpire s = .refused .timerNotArmed) := by
  cases h : s.tmrArmed <;> simp [execTimerExpire, h]

/-- Where a fetched instruction comes from (log 1). -/
theorem fetch_run_cases {s t : State} {i : Instr} (h : fetch s = .run i t) :
    (s.inputs = [] ∧ s.tmrArmed = true ∧ i = .timerExpire ∧ t = s) ∨
    (∃ a r rest, s.inputs = .issue a r :: rest ∧ decode r = .ok i ∧ i.issuer = a ∧ t = s.dropInput) := by
  unfold fetch at h
  split at h
  · rename_i hin
    split at h
    · rename_i ha
      cases h
      exact .inl ⟨hin, ha, rfl, rfl⟩
    · cases h
  · unfold fetchTeardown at h
    split at h <;> cases h
  · rename_i a r rest hin
    unfold fetchIssue at h
    split at h
    · cases h
    · rename_i j hd
      split at h
      · rename_i hi
        cases h
        exact .inr ⟨a, r, rest, hin, hd, hi, rfl⟩
      · cases h

/-- A step that answers a next state waits, or runs the fetched instruction. -/
theorem step_next_cases {s t : State} (h : step s = .next t) :
    (fetch s = .wait ∧ t = s) ∨ (∃ i u, fetch s = .run i u ∧ exec i u = .next t) := by
  unfold step at h
  split at h
  · rename_i i u hf
    exact .inr ⟨i, u, hf, h⟩
  · rename_i hf
    cases h
    exact .inl ⟨hf, rfl⟩
  · cases h

/-- A reserved instruction has no next state (R73). -/
theorem refuseReserved_ne_next (op : Byte) (s t : State) : refuseReserved op s ≠ .next t := by
  simp [refuseReserved]

end Sys2Proof.Machine
end

