-- ==== Sys2Proof/Laws/PerInstr.lean ====
section
/-! SUPPORT. One family of statements about every instruction as syntax: the request that an instruction encodes to has
the payload kind that its header fixes (30_encoding.md R70), one lemma per constructor. -/

namespace Sys2Proof.Laws.EncodeKind

/-- The encoded request is well formed. -/
def Statement (i : Instr) : Prop := (encode i).wf = true

theorem getAddress : Statement .getAddress := rfl
theorem setAddress (p : List Byte) : Statement (.setAddress p) := rfl
theorem getCommand : Statement .getCommand := rfl
theorem setCommand (p : List Byte) : Statement (.setCommand p) := rfl
theorem getCodeword : Statement .getCodeword := rfl
theorem setCodeword (p : List Byte) : Statement (.setCodeword p) := rfl
theorem trigger (v : Int) : Statement (.trigger v) := rfl
theorem stop : Statement .stop := rfl
theorem send : Statement .send := rfl
theorem sendCont : Statement .sendCont := rfl
theorem timerExpire : Statement .timerExpire := rfl
theorem reset : Statement .reset := rfl
theorem reserved06 : Statement .reserved06 := rfl
theorem reserved0A0B (x : BitVec 1) : Statement (.reserved0A0B x) := by revert x; unfold Statement; decide
theorem reserved0C0F (x : BitVec 2) : Statement (.reserved0C0F x) := by revert x; unfold Statement; decide
theorem reserved101F (x : BitVec 4) : Statement (.reserved101F x) := by revert x; unfold Statement; decide
theorem reserved203F (x : BitVec 5) : Statement (.reserved203F x) := by revert x; unfold Statement; decide
theorem reserved407F (x : BitVec 6) : Statement (.reserved407F x) := by revert x; unfold Statement; decide
theorem reserved80FF (x : BitVec 7) : Statement (.reserved80FF x) := by revert x; unfold Statement; decide

end Sys2Proof.Laws.EncodeKind
end

