-- ==== Sys2Proof/Laws/Timed.lean ====
section
/-! SUPPORT. What each operation of the timed refinement can answer: one lemma per operation, over any type of time. -/

namespace Sys2Proof.Machine

variable {τ : Type} [AddCommMonoid τ] [LinearOrder τ]

omit [LinearOrder τ] in
/-- A fired timer is the untimed step of the timer's event (R191). -/
theorem fireTimer_next {t u : Timed τ} (h : fireTimer t = .next u) :
    ∃ m, stepOn timerInput t.machine = .next m ∧
      u = { t with machine := m, now := handlingInstant t, deadline := rearmedDeadline t m } := by
  unfold fireTimer at h
  split at h
  · rename_i m hm
    cases h
    exact ⟨m, hm, rfl⟩
  · cases h
  · cases h

/-- A served arrival is the untimed step of its input. -/
theorem serveArrival_next {t u : Timed τ} {instant : τ} {a : Arrival} {rest : List (τ × Arrival)}
    (h : serveArrival t instant a rest = .next u) :
    ∃ m, stepOn (arrivalInput a) t.machine = .next m ∧
      u = { t with
        machine := m, now := serviceInstant t instant, deadline := startedDeadline t (serviceInstant t instant) m,
        arrivals := rest } := by
  unfold serveArrival at h
  split at h
  · rename_i m hm
    cases h
    exact ⟨m, hm, rfl⟩
  · cases h
  · cases h

/-- A timed step waits, fires the timer, or serves the first arrival (R186). -/
theorem timedStep_cases (t : Timed τ) :
    (t.arrivals = [] ∧ t.machine.tmrArmed = false ∧ timedStep t = .next t) ∨
    (t.machine.tmrArmed = true ∧ timedStep t = fireTimer t) ∨
    (∃ instant a rest, t.arrivals = (instant, a) :: rest ∧
      (t.machine.tmrArmed = true → serviceInstant t instant < handlingInstant t) ∧
      timedStep t = serveArrival t instant a rest) := by
  unfold timedStep
  split
  · rename_i ha
    cases harm : t.machine.tmrArmed <;> simp [ha]
  · rename_i instant a rest ha
    split
    · rename_i hc
      exact .inr (.inl ⟨by simp at hc; exact hc.1, rfl⟩)
    · rename_i hc
      refine .inr (.inr ⟨instant, a, rest, ha, fun harm => ?_, rfl⟩)
      simpa [harm] using hc

end Sys2Proof.Machine
end

