-- ==== Sys2Proof/Tests/Slice0.lean ====
section
/-! SUPPORT. Tests. The expected results come from the spec: the encodings of 30_encoding.md, the examples of the rules,
and the vectors of 95_test_vectors.md (V-EN, V-PR, V-TR, V-TE, V-RC). The witnesses at the end show, for each
statement with hypotheses, a state and operands that meet all of them. -/

namespace Sys2Proof.Tests

open Sys2Proof.Machine

/-! ## Small states -/

/-- `N_SINGLE = 10` and the initial codeword of the vectors. -/
def par : Params := ⟨10, 4, Vector.replicate 10 .s0, Vector.replicate 2 .s0⟩

/-- The bytes of an ASCII text. -/
def bytes (t : String) : List Byte := t.toList.map fun c => BitVec.ofNat 8 c.toNat

/-- `0000000000`. -/
def addr0 : Vector Sym 10 := Vector.replicate 10 .s0

/-- `ff`. -/
def cmdF : Vector Sym 2 := Vector.replicate 2 .sf

/-- Idle with the codeword `0000000000ff`. -/
def idleF : State :=
  ⟨addr0, cmdF, Vector.replicate 49 .wide, false, .cont, 0, 0, .low, false, .u30, par, [], none, 1⟩

/-- Sending `0000000000ff`. -/
def sendF (m : Mode) (pos : Fin 50) (rem : Nat) (line : Level) (dur : Dur) : State :=
  ⟨addr0, cmdF, encodeCodeword (codewordOf addr0 cmdF), true, m, rem, pos, line, true, dur, par, [], none, 1⟩

/-- Sending `111111111111`. -/
def sendOnes (m : Mode) (pos : Fin 50) (rem : Nat) (line : Level) (dur : Dur) : State :=
  { sendF m pos rem line dur with
    addr := Vector.replicate 10 .s1, cmd := Vector.replicate 2 .s1, bits := encodeCodeword (Vector.replicate 12 .s1) }

/-- The outcome is a next state with this property. -/
def nextWith (o : Host.Outcome State Fault Refusal) (f : State → Bool) : Bool :=
  match o with
  | .next t => f t
  | .fault _ => false
  | .refused _ => false

/-- The outcome is this refusal. -/
def refusedAs (o : Host.Outcome State Fault Refusal) (r : Refusal) : Bool :=
  match o with
  | .next _ => false
  | .fault _ => false
  | .refused r' => r' == r

/-- The instruction answers this response and leaves this state but for the response. -/
def gives (i : Instr) (s : State) (st : Status) (d : List Byte) (t : State) : Bool :=
  nextWith (exec i s) fun u => u == { t with response := some ⟨st, d⟩ }

/-- The instruction answers this status and changes nothing else (`unchanged` in the vectors). -/
def answers (i : Instr) (s : State) (st : Status) (d : List Byte) : Bool := gives i s st d s

/-- The expiry leaves this state, with no response. -/
def expires (s t : State) : Bool := nextWith (exec .timerExpire s) fun u => u == t

/-! ## WellFormed: each check refuses an ill-formed term -/

theorem test_wf_pseudo :
    Instr.wf .stop = false ∧ Instr.wf .send = false ∧ Instr.wf .sendCont = false ∧ Instr.wf (.trigger 0) = true := by
  decide

theorem test_wf_none_header : Request.wf ⟨0x00, .str []⟩ = false ∧ Request.wf ⟨0x08, .int 0⟩ = false := by decide
theorem test_wf_str_header : Request.wf ⟨0x01, .none⟩ = false ∧ Request.wf ⟨0x05, .int 3⟩ = false := by decide
theorem test_wf_int_header : Request.wf ⟨0x07, .none⟩ = false ∧ Request.wf ⟨0x07, .str [0x31]⟩ = false := by decide
theorem test_wf_good : Request.wf ⟨0x07, .int (-5)⟩ = true ∧ Request.wf ⟨0x01, .str []⟩ = true := by decide

/-! ## Decoding: one word of every row, its bits written out from R71 (`Z I P W`, or `Z I E`) -/

theorem test_decode_gets :
    decode ⟨0b0000#4 ++ 0b0#1 ++ 0b00#2 ++ 0b0#1, .none⟩ = .ok .getAddress ∧
    decode ⟨0b0000#4 ++ 0b0#1 ++ 0b01#2 ++ 0b0#1, .none⟩ = .ok .getCommand ∧
    decode ⟨0b0000#4 ++ 0b0#1 ++ 0b10#2 ++ 0b0#1, .none⟩ = .ok .getCodeword := by decide

theorem test_decode_sets :
    decode ⟨0b0000#4 ++ 0b0#1 ++ 0b00#2 ++ 0b1#1, .str [0x30]⟩ = .ok (.setAddress [0x30]) ∧
    decode ⟨0b0000#4 ++ 0b0#1 ++ 0b01#2 ++ 0b1#1, .str [0x31, 0x30]⟩ = .ok (.setCommand [0x31, 0x30]) ∧
    decode ⟨0b0000#4 ++ 0b0#1 ++ 0b10#2 ++ 0b1#1, .str []⟩ = .ok (.setCodeword []) := by decide

theorem test_decode_trigger :
    decode ⟨0b0000#4 ++ 0b0#1 ++ 0b11#2 ++ 0b1#1, .int 1⟩ = .ok (.trigger 1) ∧
    decode ⟨0b0000#4 ++ 0b0#1 ++ 0b11#2 ++ 0b1#1, .int (-7)⟩ = .ok (.trigger (-7)) := by decide

theorem test_decode_events :
    decode ⟨0b0000#4 ++ 0b1#1 ++ 0b000#3, .none⟩ = .ok .timerExpire ∧
    decode ⟨0b0000#4 ++ 0b1#1 ++ 0b001#3, .none⟩ = .ok .reset := by decide

theorem test_decode_reserved_low :
    decode ⟨0b00000110, .none⟩ = .ok .reserved06 ∧
    decode ⟨0b00001010, .none⟩ = .ok (.reserved0A0B 0) ∧ decode ⟨0b00001011, .int 2⟩ = .ok (.reserved0A0B 1) ∧
    decode ⟨0b00001100, .none⟩ = .ok (.reserved0C0F 0) ∧ decode ⟨0b00001111, .none⟩ = .ok (.reserved0C0F 3) := by decide

theorem test_decode_reserved_high :
    decode ⟨0b00010000, .none⟩ = .ok (.reserved101F 0) ∧ decode ⟨0b00011111, .none⟩ = .ok (.reserved101F 15) ∧
    decode ⟨0b00100001, .none⟩ = .ok (.reserved203F 1) ∧ decode ⟨0b01000111, .none⟩ = .ok (.reserved407F 7) ∧
    decode ⟨0b11111111, .str []⟩ = .ok (.reserved80FF 127) := by decide

/-- A payload of another kind is rejected by name (R70; log 7). -/
theorem test_decode_wrong_kind :
    decode ⟨0x00, .int 0⟩ = .error (.payloadKind 0x00) ∧ decode ⟨0x07, .none⟩ = .error (.payloadKind 0x07) := by decide

/-- The pseudo-instructions encode to their triggers (R83), and decode to `TRIGGER`. -/
theorem test_decode_pseudo :
    encode .stop = ⟨0x07, .int 0⟩ ∧ encode .send = ⟨0x07, .int 1⟩ ∧ encode .sendCont = ⟨0x07, .int 2⟩ ∧
    decode (encode .sendCont) = .ok (.trigger 2) := by decide

theorem test_decodeTableWord :
    decodeTableWord 8 0x01 = some (.setAddress []) ∧ decodeTableWord 8 0x07 = some (.trigger 0) ∧
    decodeTableWord 8 0x80 = some (.reserved80FF 0) ∧ decodeTableWord 16 0x01 = none := by decide

/-! ## The encoder (95_test_vectors.md section 2) -/

/-- The codeword of twelve characters. -/
def cw (t : String) : Vector Sym 12 := (decodeField tri 12 (bytes t)).getD (Vector.replicate 12 .s0)

theorem test_encode_ff : packBits (encodeCodeword (cw "0000000000ff")) = 0x66aaaaaaaaaa := by decide
theorem test_encode_mixed : packBits (encodeCodeword (cw "10f0110f0001")) = 0x5aaa6a55a6a5 := by decide
theorem test_pass_ff : unitsAt .high (wave (cw "0000000000ff")) = 29 ∧ unitsAt .low (wave (cw "0000000000ff")) = 98 := by
  decide
theorem test_pass_mixed :
    unitsAt .high (wave (cw "10f0110f0001")) = 45 ∧ unitsAt .low (wave (cw "10f0110f0001")) = 82 := by decide

/-! ## Property requests (section 3) -/

/-- V-PR24: a get while Sending. -/
theorem test_get_address : answers .getAddress (sendF .single 17 4 .low .u3) .ok (bytes "0000000000") = true := by decide
theorem test_get_command : answers .getCommand idleF .ok (bytes "ff") = true := by decide
theorem test_get_codeword : answers .getCodeword idleF .ok (bytes "0000000000ff") = true := by decide

/-- V-PR1: `F` and `f` store one symbol. -/
theorem test_set_address :
    gives (.setAddress (bytes "01F01f0101")) idleF .ok []
      { idleF with addr := #v[.s0, .s1, .sf, .s0, .s1, .sf, .s0, .s1, .s0, .s1] } = true := by decide

/-- V-PR5 (a trailing line feed), V-PR23 (invalid and busy) and V-PR19. -/
theorem test_set_address_errors :
    answers (.setAddress (bytes "0000000000" ++ [0x0A])) idleF .invalidArgument [] = true ∧
    answers (.setAddress (bytes "000000000")) (sendF .single 0 10 .high .u1) .invalidArgument [] = true ∧
    answers (.setAddress (bytes "1111111111")) (sendF .single 0 10 .high .u1) .busy [] = true := by decide

/-- V-PR9. -/
theorem test_set_command : gives (.setCommand (bytes "10")) idleF .ok [] { idleF with cmd := #v[.s1, .s0] } = true := by
  decide

/-- V-PR10, V-PR11, V-PR12, V-PR22 and V-PR20. -/
theorem test_set_command_errors :
    answers (.setCommand (bytes "1f")) idleF .invalidArgument [] = true ∧
    answers (.setCommand (bytes "F0")) idleF .invalidArgument [] = true ∧
    answers (.setCommand (bytes "0")) idleF .invalidArgument [] = true ∧
    answers (.setCommand (bytes "1f")) (sendF .cont 49 0 .low .u30) .invalidArgument [] = true ∧
    answers (.setCommand (bytes "11")) (sendF .cont 49 0 .low .u30) .busy [] = true := by decide

/-- The order of the fields: ten address symbols, then two of the command. -/
theorem test_set_codeword :
    gives (.setCodeword (bytes "1000000000fF")) idleF .ok []
      { idleF with addr := #v[.s1, .s0, .s0, .s0, .s0, .s0, .s0, .s0, .s0, .s0], cmd := #v[.sf, .sf] } = true := by
  decide

/-- V-PR17, V-PR18 and V-PR21. -/
theorem test_set_codeword_errors :
    answers (.setCodeword (bytes "0000000000f")) idleF .invalidArgument [] = true ∧
    answers (.setCodeword (bytes "0000000000fx")) idleF .invalidArgument [] = true ∧
    answers (.setCodeword (bytes "111111111111")) (sendF .single 3 10 .low .u3) .busy [] = true := by decide

/-! ## Triggers (section 4) -/

/-- V-TR2. -/
theorem test_send :
    gives .send idleF .ok [] { sendF .single 0 10 .high .u1 with response := none } = true := by decide

/-- V-TR12: the first interval is wide. -/
theorem test_send_ones :
    gives .send { idleF with addr := Vector.replicate 10 .s1, cmd := Vector.replicate 2 .s1 } .ok []
      (sendOnes .single 0 10 .high .u3) = true := by decide

/-- V-TR3. -/
theorem test_send_cont : gives .sendCont idleF .ok [] (sendF .cont 0 0 .high .u1) = true := by decide

/-- V-TR5. -/
theorem test_send_cont_busy : answers .sendCont (sendF .cont 49 0 .low .u30) .busy [] = true := by decide

/-- V-TR6: the codeword, the bitstring, the mode and the duration are kept. -/
theorem test_stop :
    gives .stop (sendF .single 17 4 .low .u3) .ok []
      { sendF .single 0 0 .low .u3 with busy := false, tmrArmed := false } = true := by decide

/-- V-TR4, V-TR8 to V-TR11. -/
theorem test_trigger :
    answers (.trigger 1) (sendF .single 17 4 .low .u3) .busy [] = true ∧
    answers (.trigger 3) idleF .invalidArgument [] = true ∧
    answers (.trigger 3) (sendF .single 17 4 .low .u3) .invalidArgument [] = true ∧
    answers (.trigger (-1)) idleF .invalidArgument [] = true ∧
    answers (.trigger 256) idleF .invalidArgument [] = true := by decide

/-- V-TR1 and V-TR3 through `TRIGGER`. -/
theorem test_trigger_values :
    answers (.trigger 0) idleF .ok [] = true ∧
    gives (.trigger 2) idleF .ok [] (sendF .cont 0 0 .high .u1) = true := by decide

/-! ## Expiries and reset (section 5) -/

/-- V-TE1 to V-TE4. -/
theorem test_expire_in_pass :
    expires (sendF .single 0 10 .high .u1) (sendF .single 1 10 .low .u3) = true ∧
    expires (sendF .single 41 10 .low .u3) (sendF .single 42 10 .high .u3) = true ∧
    expires (sendF .single 47 10 .low .u1) (sendF .single 48 10 .high .u1) = true ∧
    expires (sendF .single 48 10 .high .u1) (sendF .single 49 10 .low .u30) = true := by decide

/-- V-TE5 to V-TE9. -/
theorem test_expire_at_end :
    expires (sendF .single 49 10 .low .u30) (sendF .single 0 9 .high .u1) = true ∧
    expires (sendOnes .single 49 2 .low .u30) (sendOnes .single 0 1 .high .u3) = true ∧
    expires (sendF .single 49 1 .low .u30) { sendF .single 0 0 .low .u30 with busy := false, tmrArmed := false } = true ∧
    expires (sendOnes .cont 49 0 .low .u30) (sendOnes .cont 0 0 .high .u3) = true ∧
    refusedAs (exec .timerExpire idleF) .timerNotArmed = true := by decide

/-- R210, in the middle of a session: the free values are the model's, so the fields the rule writes are tested. -/
theorem test_reset :
    nextWith (exec .reset (sendOnes .cont 20 0 .high .u3)) (fun t =>
      t.addr == addr0 && t.cmd == Vector.replicate 2 .s0 && !t.busy && t.mode == .single && t.rem == 0 && t.pos == 0 &&
      t.line == .low && !t.tmrArmed && t.response == none) = true := by decide

/-- R73: each reserved row is refused. -/
theorem test_reserved :
    refusedAs (exec .reserved06 idleF) (.reservedHeader 0x06) = true ∧
    refusedAs (exec (.reserved0A0B 1) idleF) (.reservedHeader 0x0B) = true ∧
    refusedAs (exec (.reserved0C0F 0) idleF) (.reservedHeader 0x0C) = true ∧
    refusedAs (exec (.reserved101F 15) idleF) (.reservedHeader 0x1F) = true ∧
    refusedAs (exec (.reserved203F 0) idleF) (.reservedHeader 0x20) = true ∧
    refusedAs (exec (.reserved407F 1) idleF) (.reservedHeader 0x41) = true ∧
    refusedAs (exec (.reserved80FF 127) idleF) (.reservedHeader 0xFF) = true := by decide

/-! ## The step -/

/-- The state with one input. -/
def withInput (s : State) (a : Agent) (op : Byte) (p : Payload) : State := { s with inputs := [.issue a ⟨op, p⟩] }

/-- R72 and R73: the host may not issue `0x08`, `0x09` or a reserved header; the platform may not send a trigger. -/
theorem test_step_refusals :
    refusedAs (step (withInput (sendF .cont 0 0 .high .u1) .host 0x08 .none)) (.wrongIssuer .host 0x08) = true ∧
    refusedAs (step (withInput idleF .host 0x09 .none)) (.wrongIssuer .host 0x09) = true ∧
    refusedAs (step (withInput idleF .platform 0x07 (.int 0))) (.wrongIssuer .platform 0x07) = true ∧
    refusedAs (step (withInput idleF .host 0x06 .none)) (.reservedHeader 0x06) = true ∧
    refusedAs (step (withInput idleF .host 0xA5 (.int 4))) (.reservedHeader 0xA5) = true ∧
    refusedAs (step (withInput idleF .host 0x01 .none)) (.payloadKind 0x01) = true := by decide

/-- R213: a teardown is refused. -/
theorem test_step_teardown :
    refusedAs (step { sendF .cont 3 0 .low .u3 with inputs := [.teardown] }) .teardownWhileBusy = true ∧
    refusedAs (step { idleF with inputs := [.teardown] }) .teardownOutOfScope = true := by decide

/-- A request is served, and then, with nothing queued, the armed timer expires and the disarmed block waits (log 1). -/
theorem test_step_agents :
    nextWith (step (withInput idleF .host 0x07 (.int 1)))
      (fun t => t == { sendF .single 0 10 .high .u1 with response := some ⟨.ok, []⟩ }) = true ∧
    nextWith (step (sendF .single 0 10 .high .u1)) (fun t => t == sendF .single 1 10 .low .u3) = true ∧
    nextWith (step idleF) (fun t => t == idleF) = true := by decide

/-- The first instruction after reset is the one that `withFetchWord` places (log 6). -/
theorem test_fetch_word (m : Byte) (h : m = 0x00 ∨ m = 0x04 ∨ m = 0x07) :
    nextWith (step (State.reset.withFetchWord 8 m.toNat)) (fun t => (t.response.map Response.status) == some .ok) = true := by
  rcases h with rfl | rfl | rfl <;> decide

theorem test_fetch_word_events :
    nextWith (step (State.reset.withFetchWord 8 0x08)) (fun t => t.pos == 1 && t.line == .high) = true ∧
    nextWith (step (State.reset.withFetchWord 8 0x09)) (fun t => !t.busy) = true ∧
    refusedAs (step (State.reset.withFetchWord 8 0x40)) (.reservedHeader 0x40) = true := by decide

/-! ## Texts (R82 to R84) -/

theorem test_assemble :
    assembleLine "SET_ADDRESS  \"01\\x0Af\" ; three symbols".toList = some (.setAddress [0x30, 0x31, 0x0A, 0x66]) ∧
    assembleLine "TRIGGER -12".toList = some (.trigger (-12)) ∧ assembleLine "SEND_CONT".toList = some .sendCont ∧
    assembleLine "RESET ; platform agent only".toList = some .reset ∧ assembleLine "TRIGGER x".toList = none := by decide

/-- Malformed escapes, blanks and the forms of an integer (log 16: the model's choices). -/
theorem test_assemble_choices :
    assembleLine "SET_COMMAND \"\\x\"".toList = none ∧ assembleLine "SET_COMMAND \"\\xg0\"".toList = none ∧
    assembleLine "SET_COMMAND\"01\"".toList = some (.setCommand [0x30, 0x31]) ∧
    assembleLine "TRIGGER5".toList = some (.trigger 5) ∧ assembleLine "  STOP ".toList = some .stop ∧
    assembleLine "TRIGGER -007".toList = some (.trigger (-7)) ∧ assembleLine "TRIGGER - 7".toList = none := by decide

/-- The two listings of R84. -/
theorem test_listing :
    listing (encode (.setAddress (bytes "0000000000"))) = "01 | 30 30 30 30 30 30 30 30 30 30".toList ∧
    listing (encode .send) = "07 | 1".toList ∧ listing (encode (.trigger (-1))) = "07 | -1".toList := by decide

/-! ## The timed refinement (R191) -/

/-- Sending, on whole numbers: `T_NARROW = 4` and `L_STEP = 1`, the first deadline at `t0 + 1u` for `t0 = 100`. -/
def timed0 : Timed Nat := ⟨⟨4, 1⟩, sendF .single 0 10 .high .u1, 100, 104, [(117, .request ⟨0x07, .int 0⟩)]⟩

/-- The outcome is a next timed state with this property. -/
def timedWith (o : Host.Outcome (Timed Nat) Fault Refusal) (f : Timed Nat → Bool) : Bool :=
  match o with
  | .next t => f t
  | .fault _ => false
  | .refused _ => false

/-- The deadline 104 is handled at 105 and re-arms `104 + 3u = 116`. The request at 117 ties
with the handling of 116 at 117, and the expiry goes first (R186). -/
theorem test_timed :
    timedWith (timedStep timed0) (fun t => t.now == 105 && t.deadline == 116 && t.machine.pos == 1) = true ∧
    timedWith (timedRun 2 timed0) (fun t => t.now == 117 && t.machine.pos == 2 && t.arrivals.length == 1) = true ∧
    timedWith (timedRun 3 timed0) (fun t => t.now == 117 && !t.machine.busy && t.arrivals.isEmpty) = true := by decide

/-! ## Witnesses: for each statement with hypotheses, data that meet all of them -/

theorem witness_inv_idle : idleF.Inv ∧ idleF.busy = false := ⟨by constructor <;> decide, rfl⟩
theorem witness_inv_start : (sendF .single 0 10 .high .u1).Inv := by constructor <;> decide
theorem witness_inv_last_flag : (sendF .single 48 10 .high .u1).Inv := by constructor <;> decide
theorem witness_inv_last_pass : (sendF .single 49 1 .low .u30).Inv := by constructor <;> decide
theorem witness_inv_cont : (sendOnes .cont 49 0 .low .u30).Inv := by constructor <;> decide

theorem witness_ResetMeetsInvariant : par.Legal ∧ Params.Legal ⟨1, 1, addr0, cmdF⟩ := by decide

theorem witness_StepKeepsInvariant :
    ∃ t, (sendF .single 48 10 .high .u1).Inv ∧ step (sendF .single 48 10 .high .u1) = .next t ∧ t.pos = 49 :=
  ⟨_, witness_inv_last_flag, rfl, rfl⟩

/-- A busy state that a run reaches: reset, a queued SEND, and its step. -/
theorem witness_ReachableStatesMeetInvariant : ∃ s, Reachable s ∧ s.busy = true :=
  ⟨_, .step _ _ (.queue _ [.issue .host ⟨0x07, .int 1⟩] (.reset par (by decide) (Vector.replicate 49 .narrow) .u1)) rfl,
    rfl⟩

/-- One payload of each kind a clause names: short, with an illegal last byte, and legal. -/
theorem witness_SetAddressFollowsRule :
    ¬TriPayload (bytes "000000000") 10 ∧ ¬TriPayload (bytes "000000000x") 10 ∧ TriPayload (bytes "01F01f0101") 10 ∧
    idleF.busy = false ∧ (sendF .single 0 10 .high .u1).busy = true := by decide

theorem witness_SetCommandFollowsRule :
    ¬BinPayload (bytes "1f") 2 ∧ ¬BinPayload (bytes "011") 2 ∧ ¬BinPayload [] 2 ∧ BinPayload (bytes "10") 2 := by decide

theorem witness_SetCodewordFollowsRule :
    ¬TriPayload (bytes "0000000000f") 12 ∧ ¬TriPayload (bytes "0000000000fx") 12 ∧
    TriPayload (bytes "0000000000fF") 12 := by decide

theorem witness_PropertyRequestsKeepTheSession :
    (∃ t, exec (.setAddress (bytes "1111111111")) idleF = .next t ∧ t.addr ≠ idleF.addr) ∧
    (∃ t, exec .getCodeword (sendF .single 0 10 .high .u1) = .next t) ∧
    (∃ t, (sendF .single 0 10 .high .u1).busy = true ∧ exec (.setCommand (bytes "11")) (sendF .single 0 10 .high .u1) = .next t) ∧
    (∃ t, step (sendF .single 0 10 .high .u1) = .next t ∧ t.busy = true) :=
  ⟨⟨_, rfl, by decide⟩, ⟨_, rfl⟩, ⟨_, rfl, rfl⟩, ⟨_, rfl, rfl⟩⟩

theorem witness_SetCodewordReadsBack : idleF.busy = false ∧ TriPayload (bytes "FFFFFFFFFFFF") 12 := by decide

theorem witness_RepeatedRequests :
    (∃ t, exec (.setCodeword (bytes "0000000000f")) idleF = .next t ∧ t.response ≠ some ⟨.ok, []⟩) ∧
    (∃ t, exec (.setAddress (bytes "1111111111")) idleF = .next t ∧ t.response = some ⟨.ok, []⟩) ∧
    (∃ t, exec (.setCommand (bytes "1f")) idleF = .next t ∧ t.response ≠ some ⟨.ok, []⟩) ∧
    (∃ t, exec (.trigger 0) (sendF .cont 3 0 .low .u3) = .next t) ∧
    (∃ t, exec (.trigger 1) idleF = .next t ∧ t.busy = true) :=
  ⟨⟨_, rfl, by decide⟩, ⟨_, rfl, by decide⟩, ⟨_, rfl, by decide⟩, ⟨_, rfl⟩, ⟨_, rfl, rfl⟩⟩

/-- The values on both sides of the legal ones. -/
theorem witness_TriggerDispatchesOnItsValue : ∀ v : Int, v = -1 ∨ v = 3 → v ≠ 0 ∧ v ≠ 1 ∧ v ≠ 2 := by
  rintro v (rfl | rfl) <;> decide

theorem witness_StopWhileIdleIsNoOp : idleF.Inv ∧ idleF.busy = false := witness_inv_idle

theorem witness_StartFollowsRule :
    idleF.busy = false ∧ (sendF .single 17 4 .low .u3).busy = true ∧
    (Instr.send = .send ∧ Mode.single = .single) ∧ (Instr.trigger 2 = .trigger 2 ∧ Mode.cont = .cont) := by decide

theorem witness_StartWhileBusyIsRejected :
    (sendF .single 17 4 .low .u3).busy = true ∧ (sendF .cont 49 0 .low .u30).busy = true ∧
    (sendF .cont 49 0 .low .u30).mode = .cont := by decide

theorem witness_EncoderIsInjective : encodeCodeword (cw "00000000000f") = encodeCodeword (cw "00000000000F") := by decide

theorem witness_ExpiryEnabledOnlyWhenArmed :
    (∃ t, exec .stop (sendF .single 17 4 .low .u3) = .next t) ∧
    ((sendF .single 49 1 .low .u30).Inv ∧ ∃ t, exec .timerExpire (sendF .single 49 1 .low .u30) = .next t ∧ t.busy = false) :=
  ⟨⟨_, rfl⟩, witness_inv_last_pass, _, rfl, rfl⟩

/-- Both ends of the range of POS, a start, and a repetition. -/
theorem witness_FlagIntervalsAreArmed :
    ((sendF .single 0 10 .high .u1).pos.val < 48 ∧ (sendF .single 0 10 .high .u1).tmrArmed = true) ∧
    ((sendF .single 47 10 .low .u1).pos.val < 48 ∧ (sendF .single 47 10 .low .u1).tmrArmed = true) ∧
    (∃ t, exec .sendCont idleF = .next t ∧ idleF.busy = false) ∧
    (∃ t, exec .timerExpire (sendF .single 49 10 .low .u30) = .next t ∧ (sendF .single 49 10 .low .u30).pos = 49 ∧
      t.tmrArmed = true) :=
  ⟨by decide, by decide, ⟨_, rfl, rfl⟩, _, rfl, rfl, rfl⟩

theorem witness_SyncIntervalIsArmed :
    (sendF .single 48 10 .high .u1).Inv ∧ (sendF .single 48 10 .high .u1).busy = true ∧
    (sendF .single 48 10 .high .u1).pos = 48 := ⟨witness_inv_last_flag, rfl, rfl⟩

theorem witness_PassRepeats :
    ((sendF .single 49 2 .low .u30).tmrArmed = true ∧ (sendF .single 49 2 .low .u30).pos = 49 ∧
      (sendF .single 49 2 .low .u30).mode = .single ∧ 2 ≤ (sendF .single 49 2 .low .u30).rem) ∧
    ((sendF .cont 49 0 .low .u30).tmrArmed = true ∧ (sendF .cont 49 0 .low .u30).pos = 49 ∧
      (sendF .cont 49 0 .low .u30).mode = .cont) := by decide

theorem witness_SessionCompletes :
    (sendF .single 49 1 .low .u30).tmrArmed = true ∧ (sendF .single 49 1 .low .u30).pos = 49 ∧
    (sendF .single 49 1 .low .u30).mode = .single ∧ (sendF .single 49 1 .low .u30).rem = 1 := by decide

theorem witness_ExpiryFrame :
    ∃ t, exec .timerExpire (sendF .single 49 1 .low .u30) = .next t ∧ t.busy ≠ (sendF .single 49 1 .low .u30).busy :=
  ⟨_, rfl, by decide⟩

theorem witness_PosMovesInOrder :
    (∃ t, step (sendF .single 0 10 .high .u1) = .next t) ∧
    (∃ t, Instr.stop ≠ .timerExpire ∧ exec .stop (sendF .single 17 4 .low .u3) = .next t) ∧
    (∃ t, exec .timerExpire (sendF .single 48 10 .high .u1) = .next t) ∧
    (∃ t, exec .timerExpire (sendF .cont 49 0 .low .u30) = .next t) :=
  ⟨⟨_, rfl⟩, ⟨_, by decide, rfl⟩, ⟨_, rfl⟩, _, rfl⟩

theorem witness_WhoChangesGuardTimerAndLine :
    (∃ t, exec .send idleF = .next t ∧ idleF.busy = false ∧ t.busy = true ∧ idleF.tmrArmed = false ∧ t.tmrArmed = true) ∧
    (∃ t, exec .timerExpire (sendF .single 49 1 .low .u30) = .next t ∧ t.busy = false) ∧
    (∃ t, exec .reset (sendF .cont 0 0 .high .u1) = .next t ∧ t.busy = false ∧ t.line ≠ .high) :=
  ⟨⟨_, rfl, rfl, rfl, rfl, rfl⟩, ⟨_, rfl, rfl⟩, _, rfl, rfl, by decide⟩

theorem witness_WaveformIsFixedAtStart :
    (∃ t, idleF.busy = false ∧ exec .send idleF = .next t) ∧
    (∃ t, step (sendF .cont 49 0 .low .u30) = .next t ∧ t.busy = true) ∧
    TriPayload (bytes "1111111111") 10 ∧ BinPayload (bytes "11") 2 ∧ TriPayload (bytes "111111111111") 12 :=
  ⟨⟨_, rfl, rfl⟩, ⟨_, rfl, rfl⟩, by decide, by decide, by decide⟩

/-- An invalid argument and a busy answer. -/
theorem witness_ErrorsWriteNothing :
    (∃ t r, exec (.trigger 3) idleF = .next t ∧ t.response = some r ∧ r.status = .invalidArgument) ∧
    (∃ t r, exec .send (sendF .cont 49 0 .low .u30) = .next t ∧ t.response = some r ∧ r.status = .busy) ∧
    Instr.isHost (.trigger 3) = true ∧ Instr.isHost .send = true :=
  ⟨⟨_, _, rfl, rfl, rfl⟩, ⟨_, _, rfl, rfl, rfl⟩, by decide, by decide⟩

theorem witness_ErrorCauses :
    ∃ t r, Instr.isHost (.setCommand (bytes "1f")) = true ∧ exec (.setCommand (bytes "1f")) idleF = .next t ∧
      t.response = some r ∧ r.status = .invalidArgument := ⟨_, _, rfl, rfl, rfl, rfl⟩

theorem witness_HostRequestsAnswerOnce :
    (Instr.isHost .getCommand = true ∧ headerKind (encode .getCommand).op ≠ none) ∧
    (Instr.isHost .timerExpire = false ∧ ∃ t, exec .timerExpire (sendF .cont 0 0 .high .u1) = .next t) :=
  ⟨by decide, by decide, _, rfl⟩

/-- Two states that differ in every hidden register. -/
theorem witness_HiddenStateStaysHidden :
    ∃ t t', SameVisible (sendF .single 0 10 .high .u1) { sendF .cont 2 0 .high .u3 with bits := Vector.replicate 49 .wide } ∧
      exec .send (sendF .single 0 10 .high .u1) = .next t ∧
      exec .send { sendF .cont 2 0 .high .u3 with bits := Vector.replicate 49 .wide } = .next t' :=
  ⟨_, _, by decide, rfl, rfl⟩

theorem witness_RemFitsItsWidth :
    (sendF .single 49 1 .low .u30).Inv ∧ ∃ t, exec .timerExpire (sendF .single 49 1 .low .u30) = .next t ∧
      (sendF .single 49 1 .low .u30).pos = 49 ∧ (sendF .single 49 1 .low .u30).mode = .single :=
  ⟨witness_inv_last_pass, _, rfl, rfl, rfl⟩

theorem witness_StepTakesOneInput : ∃ t, step (withInput idleF .platform 0x09 .none) = .next t ∧ t.freeIdx = 2 :=
  ⟨_, rfl, rfl⟩

theorem witness_PassFollowsWave :
    (sendF .single 0 10 .high .u1).Inv ∧ (sendF .single 0 10 .high .u1).busy = true ∧
    (sendF .single 0 10 .high .u1).pos = 0 := ⟨witness_inv_start, rfl, rfl⟩

theorem witness_SingleFrameSessionEnds : idleF.Inv ∧ idleF.busy = false ∧ 0 < 50 * idleF.params.nSingle :=
  ⟨witness_inv_idle.1, rfl, by decide⟩

theorem witness_ContinuousSessionNeverEnds :
    (sendOnes .cont 49 0 .low .u30).Inv ∧ (sendOnes .cont 49 0 .low .u30).busy = true ∧
    (sendOnes .cont 49 0 .low .u30).mode = .cont := ⟨witness_inv_cont, rfl, rfl⟩

theorem witness_StopAndExpiryConverge :
    (sendF .single 17 4 .low .u3).tmrArmed = true ∧
    ((sendF .single 49 1 .low .u30).tmrArmed = true ∧ (sendF .single 49 1 .low .u30).pos = 49 ∧
      (sendF .single 49 1 .low .u30).mode = .single ∧ (sendF .single 49 1 .low .u30).rem = 1) := by decide

theorem witness_StartRaceDoesNotConverge :
    (sendF .single 49 1 .low .u30).busy = true ∧ (sendF .single 49 1 .low .u30).tmrArmed = true ∧
    (sendF .single 49 1 .low .u30).pos = 49 ∧ (sendF .single 49 1 .low .u30).mode = .single ∧
    (sendF .single 49 1 .low .u30).rem = 1 ∧ BinPayload (bytes "11") 2 := by decide

theorem witness_StepRunsTheDecodedInstruction :
    ((withInput idleF .host 0x07 (.int 1)).inputs = .issue .host ⟨0x07, .int 1⟩ :: [] ∧
      decode ⟨0x07, .int 1⟩ = .ok (.trigger 1) ∧ (Instr.trigger 1).issuer = .host) ∧
    ((sendF .cont 0 0 .high .u1).inputs = [] ∧ (sendF .cont 0 0 .high .u1).tmrArmed = true) ∧
    (idleF.inputs = [] ∧ idleF.tmrArmed = false) := by decide

theorem witness_DecodeOfEncode : Instr.wf (.setCodeword [0x00, 0xFF]) = true ∧ Instr.wf (.reserved80FF 127) = true := by
  decide

theorem witness_EncodeOfDecode :
    decode ⟨0x05, .str [0x30]⟩ = .ok (.setCodeword [0x30]) ∧ headerKind 0x05 ≠ none ∧
    decode ⟨0x0A, .str [0x30]⟩ = .ok (.reserved0A0B 0) ∧ headerKind 0x0A = none := by decide

theorem witness_DecodeFollowsTheOpcodeTable : decode ⟨0xFF, .none⟩ = .ok (.reserved80FF 127) := by decide

theorem witness_ReservedHeadersAreRefused :
    ((withInput idleF .host 0x06 .none).inputs = .issue .host ⟨0x06, .none⟩ :: [] ∧ headerKind 0x06 = none) ∧
    headerKind (encode (.reserved0A0B 0)).op = none := by decide

theorem witness_InternalHeadersAreNotTheHosts :
    (∃ t, (withInput (sendF .cont 0 0 .high .u1) .timer 0x08 .none).inputs = .issue .timer ⟨0x08, .none⟩ :: [] ∧
      step (withInput (sendF .cont 0 0 .high .u1) .timer 0x08 .none) = .next t) ∧
    (∃ t, step (withInput idleF .platform 0x09 .none) = .next t) ∧
    (withInput idleF .host 0x09 .none).inputs = .issue .host ⟨0x09, .none⟩ :: [] :=
  ⟨⟨_, rfl, rfl⟩, ⟨_, rfl⟩, rfl⟩

/-- The first and the last printable byte, and a symbol. -/
theorem witness_AssemblerReadsStrings :
    ∀ b ∈ ([0x20, 0x7E, 0x66] : List Byte), 0x20 ≤ b.toNat ∧ b.toNat ≤ 0x7E ∧ b ≠ 0x22 ∧ b ≠ 0x5C := by decide

/-- Durations with no common divisor are legal: `T_NARROW` is the root of 2 and `L_STEP` is 1. -/
theorem witness_timing : Timing.Legal (⟨NNReal.sqrt 2, 1⟩ : Timing Time) := by
  constructor
  · simp
  · have h : NNReal.sqrt 1 < NNReal.sqrt 2 := NNReal.sqrt_lt_sqrt.mpr one_lt_two
    simpa using h

theorem witness_TimedStepsAreUntimedSteps (k : Timing Time) :
    ∃ u, timedStep ⟨k, sendF .single 0 10 .high .u1, 0, 4, []⟩ = .next u := ⟨_, rfl⟩

/-- With the deadline 104 and a latency of 1: an arrival at the tie, 105, and one before it, at 104. -/
theorem witness_ExpiryGoesFirstAtATie :
    ∃ t t' : Timed Time,
      (t.machine.tmrArmed = true ∧ t.now ≤ 105 ∧ t.arrivals = [(105, .request ⟨0x07, .int 0⟩)] ∧
        t.deadline + t.timing.lStep ≤ 105) ∧
      (t'.machine.tmrArmed = true ∧ t'.now ≤ 104 ∧ t'.arrivals = [(104, .reset)] ∧
        104 < t'.deadline + t'.timing.lStep) := by
  refine ⟨⟨⟨4, 1⟩, sendF .single 0 10 .high .u1, 100, 104, [(105, .request ⟨0x07, .int 0⟩)]⟩,
    ⟨⟨4, 1⟩, sendF .single 0 10 .high .u1, 100, 104, [(104, .reset)]⟩, ⟨rfl, ?_, rfl, ?_⟩, ⟨rfl, ?_, rfl, ?_⟩⟩ <;>
    norm_num

theorem witness_IntervalsDoNotDrift (k : Timing Time) :
    ∃ t u w : Timed Time, t.timing = k ∧ t.machine.Inv ∧ fireTimer t = .next u ∧ fireTimer u = .next w :=
  ⟨⟨k, sendF .single 0 10 .high .u1, 0, 4, []⟩, _, _, rfl, witness_inv_start, rfl, rfl⟩

/-- An Idle block and one SEND to come. -/
theorem witness_SingleFrameSessionTakes127UnitsAPass (k : Timing Time) :
    ∃ t : Timed Time, t.timing = k ∧ t.machine.Inv ∧ t.machine.busy = false ∧ t.now ≤ 7 ∧
      t.arrivals = [(7, .request ⟨0x07, .int 1⟩)] :=
  ⟨⟨k, idleF, 0, 0, [(7, .request ⟨0x07, .int 1⟩)]⟩, rfl, witness_inv_idle.1, rfl, by norm_num, rfl⟩

theorem witness_TimedStepKeepsInvariant :
    ∃ t u : Timed Time, t.Inv ∧ timedStep t = .next u :=
  ⟨⟨⟨NNReal.sqrt 2, 1⟩, sendF .single 0 10 .high .u1, 0, 4, []⟩, _,
    ⟨witness_inv_start, witness_timing, fun _ => by norm_num⟩, rfl⟩

theorem witness_HandlingEndsBeforeNextDeadline :
    ∃ t u : Timed Time, t.timing.Legal ∧ fireTimer t = .next u ∧ u.machine.tmrArmed = true :=
  ⟨⟨⟨NNReal.sqrt 2, 1⟩, sendF .single 0 10 .high .u1, 0, 4, []⟩, _, witness_timing, rfl, rfl⟩

end Sys2Proof.Tests
end

section
/-! Lemmas about the model: what a payload carries, and what an instruction and a step that answer a next state have
done. The statements of the memory family (20_memory.md) are settled from them. -/

namespace Sys2Proof.Machine

/-! ## What a payload carries (R76, R77) -/

/-- `tri` is the table of R76. -/
theorem tri_eq_some_iff (b : Byte) (x : Sym) : tri b = some x ↔ Carries b x := by
  unfold tri
  split <;> cases x <;> simp_all [Carries]

/-- The bytes that `tri` reads are the four of R76. -/
theorem tri_isSome_iff (b : Byte) : (tri b).isSome ↔ b = 0x30 ∨ b = 0x31 ∨ b = 0x66 ∨ b = 0x46 := by
  unfold tri
  split <;> simp_all

/-- The bytes that `bin` reads are the two of R77. -/
theorem bin_isSome_iff (b : Byte) : (bin b).isSome ↔ b = 0x30 ∨ b = 0x31 := by
  unfold bin
  split <;> simp_all

/-- The payloads that decode with `tri` are those of R76's table. -/
theorem exists_decodeField_tri_iff (len : Nat) (p : List Byte) :
    (∃ v, decodeField tri len p = some v) ↔ TriPayload p len := by
  rw [← Option.ne_none_iff_exists', Ne, decodeField_eq_none_iff, not_not]
  simp only [tri_isSome_iff]

/-- The payloads that decode with `bin` are those of R77's table. -/
theorem exists_decodeField_bin_iff (len : Nat) (p : List Byte) :
    (∃ v, decodeField bin len p = some v) ↔ BinPayload p len := by
  rw [← Option.ne_none_iff_exists', Ne, decodeField_eq_none_iff, not_not]
  simp only [bin_isSome_iff]

/-- Byte `i` of a payload decodes to symbol `i` of the field (R52). -/
theorem decodeField_getElem {alphabet : Byte → Option Sym} {len : Nat} {p : List Byte} {v : Vector Sym len}
    (h : decodeField alphabet len p = some v) (i : Fin len) : ∃ b, p[i.val]? = some b ∧ alphabet b = some v[i] := by
  have hi := congrArg (·[i.val]?) ((decodeField_eq_some_iff alphabet len p v).1 h)
  simpa [List.getElem?_map] using hi

/-! ## What each instruction calls -/

theorem exec_setAddress (p : List Byte) (s : State) :
    exec (.setAddress p) s = setField (decodeField tri 10 p) State.setAddr s := rfl

theorem exec_setCommand (p : List Byte) (s : State) :
    exec (.setCommand p) s = setField (decodeField bin 2 p) State.setCmd s := rfl

theorem exec_setCodeword (p : List Byte) (s : State) :
    exec (.setCodeword p) s = setField (decodeField tri 12 p) State.setCodeword s := rfl

theorem exec_send (s : State) : exec .send s = start .single s := rfl

/-- A valid set while the guard is held (R63, R183). -/
theorem setField_of_busy {α : Type} {field : Option α} {v : α} (write : α → State → State) {s : State}
    (hf : field = some v) (hb : s.busy = true) : setField field write s = .next (s.respond .busy []) := by
  simp [hf, setField, hb, raise]

/-- A valid set while the guard is free. -/
theorem setField_of_idle {α : Type} {field : Option α} {v : α} (write : α → State → State) {s : State}
    (hf : field = some v) (hb : s.busy = false) : setField field write s = .next ((write v s).respond .ok []) := by
  simp [hf, setField, hb, finishOk]

/-- A start while the guard is free (R142). -/
theorem start_of_idle (m : Mode) {s : State} (hb : s.busy = false) :
    start m s = .next ((s.beginSession m).respond .ok []) := by
  simp [start, hb, finishOk]

/-! ## Fields after the composite updates -/

@[simp] theorem State.beginSession_bits (m : Mode) (s : State) :
    (s.beginSession m).bits = encodeCodeword (codewordOf s.addr s.cmd) := rfl

@[simp] theorem State.endSession_busy (s : State) : s.endSession.busy = false := rfl

@[simp] theorem State.resetBlock_busy (s : State) : s.resetBlock.busy = false := rfl

/-- `ADDR`, `CMD`, `BITS` and `MODE`, what R63 fixes for a session, are unchanged. -/
def SameWaveform (s t : State) : Prop := SameCodeword s t ∧ t.bits = s.bits ∧ t.mode = s.mode

theorem SameWaveform.refl (s : State) : SameWaveform s s := ⟨⟨rfl, rfl⟩, rfl, rfl⟩

theorem SameWaveform.trans {s t u : State} (hst : SameWaveform s t) (htu : SameWaveform t u) : SameWaveform s u := by
  obtain ⟨⟨ha, hc⟩, hb, hm⟩ := hst
  obtain ⟨⟨ha', hc'⟩, hb', hm'⟩ := htu
  exact ⟨⟨ha'.trans ha, hc'.trans hc⟩, hb'.trans hb, hm'.trans hm⟩

/-- The end of a pass completes the session or repeats the pass, and writes none of the four fields. -/
theorem State.endPass_sameWaveform (s : State) : SameWaveform s s.endPass := by
  obtain ⟨-, -, h⟩ | ⟨-, -, h⟩ | ⟨-, h⟩ := endPass_cases s <;> rw [h] <;> exact ⟨⟨rfl, rfl⟩, rfl, rfl⟩

/-- The advance goes on inside the pass, to the sync interval, or to the end of the pass. -/
theorem State.advance_sameWaveform (s : State) : SameWaveform s s.advance := by
  obtain h | h | h : s.pos.val < 48 ∨ s.pos.val = 48 ∨ s.pos.val = 49 := by omega
  · rw [advance_inside s h]
    exact ⟨⟨rfl, rfl⟩, rfl, rfl⟩
  · rw [advance_sync s h]
    exact ⟨⟨rfl, rfl⟩, rfl, rfl⟩
  · rw [advance_last s h]
    exact s.endPass_sameWaveform

/-- An expiry writes neither the codeword nor `BITS` nor `MODE` (R161). -/
theorem State.expire_sameWaveform (s : State) : SameWaveform s s.expire :=
  SameWaveform.trans ⟨⟨rfl, rfl⟩, rfl, rfl⟩ (State.advance_sameWaveform _)

/-! ## What an instruction and a step can do -/

/-- What an instruction that answers a next state has done to the state it ran in. -/
inductive Effect (s : State) : State → Prop where
  /-- an answer that writes no state: a get, or an error (R57, R181) -/
  | answer (st : Status) (d : List Byte) : Effect s (s.respond st d)
  /-- a set while the guard is free (R122, R124, R126) -/
  | store (a : Vector Sym 10) (c : Vector Sym 2) (hb : s.busy = false) :
      Effect s (((s.setAddr a).setCmd c).respond .ok [])
  /-- a start while the guard is free (R142) -/
  | begin (m : Mode) (hb : s.busy = false) : Effect s ((s.beginSession m).respond .ok [])
  /-- a stop (R141) -/
  | stop : Effect s (s.endSession.respond .ok [])
  /-- an expiry of the armed timer (R160, R161) -/
  | expire (ha : s.tmrArmed = true) : Effect s s.expire
  /-- a reset (R210) -/
  | reset : Effect s s.resetBlock.silent

/-- A set whose write is one of the codeword's fields, or both, answers or stores. -/
theorem Effect.of_setField {α : Type} {field : Option α} {write : α → State → State} {s t : State}
    (hw : ∀ v, ∃ a c, write v s = (s.setAddr a).setCmd c) (h : setField field write s = .next t) : Effect s t := by
  obtain ⟨-, h'⟩ | ⟨v, -, -, h'⟩ | ⟨v, -, hb, h'⟩ := setField_cases field write s <;> cases h'.symm.trans h
  · exact .answer _ _
  · exact .answer _ _
  · obtain ⟨a, c, hv⟩ := hw v
    rw [hv]
    exact .store a c hb

/-- A start answers `BUSY` or begins a session. -/
theorem Effect.of_start {m : Mode} {s t : State} (h : start m s = .next t) : Effect s t := by
  obtain ⟨-, h'⟩ | ⟨hb, h'⟩ := start_cases m s <;> cases h'.symm.trans h
  · exact .answer _ _
  · exact .begin m hb

/-- A trigger stops, starts, or answers `INVALID_ARGUMENT` (R140). -/
theorem Effect.of_trigger {v : Int} {s t : State} (h : execTrigger v s = .next t) : Effect s t := by
  obtain ⟨-, h'⟩ | ⟨-, h'⟩ | ⟨-, h'⟩ | ⟨-, -, -, h'⟩ := execTrigger_cases v s <;> rw [h'] at h
  · cases h
    exact .stop
  · exact .of_start h
  · exact .of_start h
  · cases h
    exact .answer _ _

/-- The timer's step is an expiry of the armed timer. -/
theorem Effect.of_timerExpire {s t : State} (h : execTimerExpire s = .next t) : Effect s t := by
  obtain ⟨ha, h'⟩ | ⟨-, h'⟩ := execTimerExpire_cases s <;> cases h'.symm.trans h
  exact .expire ha

/-- Every instruction that answers a next state has one of the six effects. -/
theorem exec_effect {i : Instr} {s t : State} (h : exec i s = .next t) : Effect s t := by
  cases i with
  | getAddress | getCommand | getCodeword => cases h; exact .answer _ _
  | setAddress p => exact .of_setField (fun v => ⟨v, s.cmd, rfl⟩) h
  | setCommand p => exact .of_setField (fun v => ⟨s.addr, v, rfl⟩) h
  | setCodeword p => exact .of_setField (fun v => ⟨addressOf v, commandOf v, rfl⟩) h
  | trigger v => exact .of_trigger h
  | stop => cases h; exact .stop
  | send | sendCont => exact .of_start h
  | timerExpire => exact .of_timerExpire h
  | reset => cases h; exact .reset
  | reserved06 | reserved0A0B | reserved0C0F | reserved101F | reserved203F | reserved407F | reserved80FF =>
    exact (refuseReserved_ne_next _ s t h).elim

/-- A step that answers a next state waits, or has one of the effects, once its input, if it took one, is dropped. -/
theorem step_effect {s t : State} (h : step s = .next t) : t = s ∨ Effect s t ∨ Effect s.dropInput t := by
  obtain ⟨-, rfl⟩ | ⟨i, u, hf, hx⟩ := step_next_cases h
  · exact .inl rfl
  · obtain ⟨-, -, -, rfl⟩ | ⟨_, _, _, -, -, -, rfl⟩ := fetch_run_cases hf
    · exact .inr (.inl (exec_effect hx))
    · exact .inr (.inr (exec_effect hx))

/-! ## The waveform of a session (R63) -/

/-- An effect that leaves the guard held writes none of the four fields: sets and starts need a free guard, a stop and
a reset free it. -/
theorem Effect.sameWaveform {s t : State} (h : Effect s t) (hs : s.busy = true) (ht : t.busy = true) :
    SameWaveform s t := by
  cases h with
  | answer st d => exact ⟨⟨rfl, rfl⟩, rfl, rfl⟩
  | store a c hb => simp [hs] at hb
  | begin m hb => simp [hs] at hb
  | stop => simp at ht
  | expire ha => exact s.expire_sameWaveform
  | reset => simp at ht

/-- A step within a session keeps its waveform. -/
theorem step_sameWaveform {s t : State} (h : step s = .next t) (hs : s.busy = true) (ht : t.busy = true) :
    SameWaveform s t := by
  obtain rfl | he | he := step_effect h
  · exact .refl t
  · exact he.sameWaveform hs ht
  · exact he.sameWaveform (s := s.dropInput) hs ht

/-- A start that the guard lets through encodes the stored codeword (R142). -/
theorem start_bits {m : Mode} {s t : State} (hb : s.busy = false) (h : start m s = .next t) :
    t.bits = encodeCodeword (codewordOf s.addr s.cmd) := by
  cases (start_of_idle m hb).symm.trans h
  simp

/-- A valid `SET_CODEWORD` and the `SEND` after it: what is sent is the encoding of the codeword just set. -/
theorem setCodeword_send {p : List Byte} {s : State} {cw : Vector Sym 12} (hb : s.busy = false)
    (hcw : decodeField tri 12 p = some cw) :
    ∃ t u, exec (.setCodeword p) s = .next t ∧ exec .send t = .next u ∧ u.bits = encodeCodeword cw := by
  have ht := setField_of_idle State.setCodeword hcw hb
  have hu := start_of_idle .single (s := (s.setCodeword cw).respond .ok []) hb
  refine ⟨_, _, (exec_setCodeword p s).trans ht, (exec_send _).trans hu, ?_⟩
  simp

/-- Settles O29: a start encodes the stored codeword, a step within a session keeps it, a valid set within a session
answers `BUSY`, and a set before a start decides what the start encodes. -/
theorem waveformIsFixedAtStart : Obligations.WaveformIsFixedAtStart := by
  unfold Obligations.WaveformIsFixedAtStart
  refine ⟨?start, ?within, ?setWhileBusy, ?setThenSend⟩
  case start => exact fun s t hb h => h.elim (start_bits hb) (start_bits hb)
  case within => exact fun s t h hs ht => step_sameWaveform h hs ht
  case setWhileBusy =>
    intro p s hb
    refine ⟨fun hp => ?_, fun hp => ?_, fun hp => ?_⟩
    · obtain ⟨v, hv⟩ := (exists_decodeField_tri_iff 10 p).2 hp
      exact (exec_setAddress p s).trans (setField_of_busy _ hv hb)
    · obtain ⟨v, hv⟩ := (exists_decodeField_bin_iff 2 p).2 hp
      exact (exec_setCommand p s).trans (setField_of_busy _ hv hb)
    · obtain ⟨v, hv⟩ := (exists_decodeField_tri_iff 12 p).2 hp
      exact (exec_setCodeword p s).trans (setField_of_busy _ hv hb)
  case setThenSend =>
    intro p s hb hp
    obtain ⟨cw, hcw⟩ := (exists_decodeField_tri_iff 12 p).2 hp
    obtain ⟨t, u, ht, hu, hbits⟩ := setCodeword_send hb hcw
    refine ⟨cw, t, u, ht, hu, hbits, fun i => ?_⟩
    obtain ⟨b, hb, hx⟩ := decodeField_getElem hcw i
    exact ⟨b, hb, (tri_eq_some_iff b cw[i]).1 hx⟩

end Sys2Proof.Machine
end

section
/-! The encoder (40_encoder.md R100, R101): where a flag of a codeword's encoding comes from. -/

namespace Sys2Proof.Machine

@[simp] theorem flagsOf_nil : flagsOf [] = [] := rfl

@[simp] theorem flagsOf_cons (x : Sym) (xs : List Sym) : flagsOf (x :: xs) = symFlags x ++ flagsOf xs := rfl

/-- Flag `4 i + k` of a sequence of symbols is entry `k` of the row of symbol `i`: every row holds four flags, so the
symbols before it fill the flags below `4 i` (R100, R101). -/
theorem flagsOf_getElem? {k : Nat} (hk : k < 4) (syms : List Sym) (i : Nat) :
    (flagsOf syms)[4 * i + k]? = syms[i]?.bind fun x => (symFlags x)[k]? := by
  induction syms generalizing i with
  | nil => simp
  | cons x xs ih =>
    have hlen := symFlags_length x
    cases i with
    | zero =>
      rw [flagsOf_cons, List.getElem?_append_left (by omega)]
      simp
    | succ i =>
      have hsub : 4 * (i + 1) + k - (symFlags x).length = 4 * i + k := by omega
      rw [flagsOf_cons, List.getElem?_append_right (by omega), hsub, ih i, List.getElem?_cons_succ]

theorem encodeCodeword_toList (cw : Vector Sym 12) : (encodeCodeword cw).toList = flagsOf cw.toList ++ [.narrow] := rfl

/-- The flags of the 12 symbols are the 48 flags before the last one. -/
theorem flagsOf_codeword_length (cw : Vector Sym 12) : (flagsOf cw.toList).length = 48 := by
  simp [flagsOf_length]

/-- Below flag 48 the encoding is the symbols' flags (R101). -/
theorem encodeCodeword_getElem?_of_lt (cw : Vector Sym 12) {n : Nat} (hn : n < 48) :
    (encodeCodeword cw)[n]? = (flagsOf cw.toList)[n]? := by
  rw [← Vector.getElem?_toList, encodeCodeword_toList,
    List.getElem?_append_left (by rwa [flagsOf_codeword_length])]

/-- Flag `4 i + k` of an encoding is entry `k` of the row of symbol `i` (R100, R101). -/
theorem encodeCodeword_symFlag (cw : Vector Sym 12) (i : Fin 12) (k : Fin 4) :
    (encodeCodeword cw)[4 * i.val + k.val]? = (symFlags cw[i])[k.val]? := by
  rw [encodeCodeword_getElem?_of_lt cw (by omega), flagsOf_getElem? k.isLt]
  simp

/-- The last flag is 0 (R101, R102). -/
theorem encodeCodeword_last (cw : Vector Sym 12) : (encodeCodeword cw)[48] = .narrow := by
  have h : (encodeCodeword cw)[48]? = some .narrow := by
    rw [← Vector.getElem?_toList, encodeCodeword_toList, ← flagsOf_codeword_length cw, List.getElem?_concat_length]
  simpa using h

/-- Settles O18: the flags of a symbol stand at four times its place, and the flag after all of them is narrow. -/
theorem encoderFollowsTable : Obligations.EncoderFollowsTable := by
  unfold Obligations.EncoderFollowsTable
  refine ⟨fun cw i k => ?_, encodeCodeword_last, rfl, rfl, rfl⟩
  rw [← encodeCodeword_symFlag cw i k]
  exact Vector.getElem?_eq_getElem (by omega)

end Sys2Proof.Machine
end

section
/-! The property requests (41_property_requests.md R121 to R127): the frame of the gets and of the sets. -/

namespace Sys2Proof.Machine

/-- The frame of the property family (R127): the session and the model's own fields are unchanged, and so is the
codeword when the guard was held. -/
def KeepsSession (s t : State) : Prop := SameSession s t ∧ SameModel s t ∧ (s.busy = true → SameCodeword s t)

/-- An answer that writes no state: a get, or an error (R57, R181). -/
theorem State.respond_keepsSession (st : Status) (d : List Byte) (s : State) : KeepsSession s (s.respond st d) := by
  simp [KeepsSession, SameSession, SameModel, SameCodeword]

/-- A write of the codeword's fields is no write of the session. -/
theorem State.setAddr_setCmd_frame (a : Vector Sym 10) (c : Vector Sym 2) (s : State) :
    SameSession s ((s.setAddr a).setCmd c) ∧ SameModel s ((s.setAddr a).setCmd c) := by
  simp [SameSession, SameModel]

/-- A get writes the response alone. -/
theorem getField_keepsSession {len : Nat} {field : Vector Sym len} {s t : State} (h : getField field s = .next t) :
    KeepsSession s t := by
  cases h
  exact s.respond_keepsSession _ _

/-- A set writes the response alone, or its field when it finds the guard free; so it keeps what that write keeps. -/
theorem setField_keepsSession {α : Type} {field : Option α} {write : α → State → State} {s t : State}
    (hw : ∀ v, SameSession s (write v s) ∧ SameModel s (write v s)) (h : setField field write s = .next t) :
    KeepsSession s t := by
  obtain ⟨-, h'⟩ | ⟨v, -, -, h'⟩ | ⟨v, -, hb, h'⟩ := setField_cases field write s <;> cases h'.symm.trans h
  · exact s.respond_keepsSession _ _
  · exact s.respond_keepsSession _ _
  · obtain ⟨hsession, hmodel⟩ := hw v
    exact ⟨hsession, hmodel, fun hs => by simp [hs] at hb⟩

/-- A set while the guard is held answers one of the two errors (R127, R183). -/
theorem setField_response_of_busy {α : Type} {field : Option α} {write : α → State → State} {s t : State}
    (hs : s.busy = true) (h : setField field write s = .next t) :
    t.response = some ⟨.invalidArgument, []⟩ ∨ t.response = some ⟨.busy, []⟩ := by
  obtain ⟨-, h'⟩ | ⟨v, -, -, h'⟩ | ⟨v, -, hb, -⟩ := setField_cases field write s
  · cases h'.symm.trans h
    exact .inl rfl
  · cases h'.symm.trans h
    exact .inr rfl
  · simp [hs] at hb

/-- Settles O10: a get writes its response alone, a set that stores found the guard free, and a step within a session
keeps its waveform, of which the codeword is part. -/
theorem propertyRequestsKeepTheSession : Obligations.PropertyRequestsKeepTheSession := by
  unfold Obligations.PropertyRequestsKeepTheSession
  refine ⟨?frame, ?errors, ?within⟩
  case frame =>
    rintro p s t (h | h | h | h | h | h)
    · exact getField_keepsSession (field := s.addr) h
    · exact getField_keepsSession (field := s.cmd) h
    · exact getField_keepsSession (field := s.codeword) h
    · rw [exec_setAddress] at h
      exact setField_keepsSession (write := State.setAddr) (fun v => s.setAddr_setCmd_frame v s.cmd) h
    · rw [exec_setCommand] at h
      exact setField_keepsSession (write := State.setCmd) (fun v => s.setAddr_setCmd_frame s.addr v) h
    · rw [exec_setCodeword] at h
      exact setField_keepsSession (write := State.setCodeword)
        (fun v => s.setAddr_setCmd_frame (addressOf v) (commandOf v)) h
  case errors =>
    rintro p s t hs (h | h | h)
    · exact setField_response_of_busy hs (exec_setAddress p s ▸ h)
    · exact setField_response_of_busy hs (exec_setCommand p s ▸ h)
    · exact setField_response_of_busy hs (exec_setCodeword p s ▸ h)
  case within =>
    intro s t h hs ht
    obtain ⟨hcodeword, -, -⟩ := step_sameWaveform h hs ht
    exact hcodeword

end Sys2Proof.Machine
end

section
/-! The trigger requests (42_trigger_requests.md R140 to R145): which requests start a session, and what a start does
with the guard free and with the guard held. -/

namespace Sys2Proof.Machine

/-! ## The first interval of a pass (R100, R142) -/

/-- Symbol 0 of the codeword is symbol 0 of the address (R23). -/
theorem State.codeword_first (s : State) : s.codeword[0] = s.addr[0] := by
  simp [State.codeword, codewordOf]

/-- Flag 0 of an encoding heads the row of symbol 0, so the interval it stands for is wide exactly for `S1` (R100). -/
theorem flagDur_encodeCodeword_first (cw : Vector Sym 12) :
    flagDur (encodeCodeword cw)[0] = if cw[0] = .s1 then .u3 else .u1 := by
  have hfirst : some (encodeCodeword cw)[0] = (symFlags cw[0])[0]? := by simpa using encodeCodeword_symFlag cw 0 0
  cases hx : cw[0] <;> simp_all [symFlags, flagDur]

/-! ## The start path (R142) -/

theorem startCount_eq_ite (m : Mode) (p : Params) : startCount m p = if m = .single then p.nSingle else 0 := by
  cases m <;> rfl

/-- The writes of an accepted start, field by field: the interval armed is that of the first flag of the new encoding,
not of the old `BITS`. -/
theorem State.beginSession_eq (m : Mode) (s : State) :
    s.beginSession m = { s with
      busy := true, bits := encodeCodeword s.codeword, mode := m, rem := if m = .single then s.params.nSingle else 0,
      pos := 0, line := .high, tmrArmed := true, tmrDur := if s.addr[0] = .s1 then .u3 else .u1 } := by
  simp only [State.beginSession, flagDur_encodeCodeword_first, s.codeword_first, startCount_eq_ite,
    State.acquireGuard, State.setCounts, State.driveLine, State.arm]

/-- A start while the guard is held (R58, R142). -/
theorem start_of_busy (m : Mode) {s : State} (hb : s.busy = true) : start m s = .next (s.respond .busy []) := by
  simp [start, hb, raise]

/-! ## The requests that take it (R83, R140) -/

/-- `i` is a request for a start in mode `m`. -/
def StartsIn (i : Instr) (m : Mode) : Prop :=
  (i = .send ∨ i = .trigger 1) ∧ m = .single ∨ (i = .sendCont ∨ i = .trigger 2) ∧ m = .cont

theorem StartsIn.exec_eq {i : Instr} {m : Mode} (h : StartsIn i m) (s : State) : exec i s = start m s := by
  obtain ⟨rfl | rfl, rfl⟩ | ⟨rfl | rfl, rfl⟩ := h <;> rfl

/-- Each of the four start requests has its mode. -/
theorem exists_startsIn {i : Instr} (h : i = .send ∨ i = .sendCont ∨ i = .trigger 1 ∨ i = .trigger 2) :
    ∃ m, StartsIn i m := by
  obtain h | h | h | h := h
  · exact ⟨.single, .inl ⟨.inl h, rfl⟩⟩
  · exact ⟨.cont, .inr ⟨.inl h, rfl⟩⟩
  · exact ⟨.single, .inl ⟨.inr h, rfl⟩⟩
  · exact ⟨.cont, .inr ⟨.inr h, rfl⟩⟩

/-- Settles O16: all four requests take the one start path, which with the guard free writes what `beginSession_eq`
lists, and with the guard held answers `BUSY`. -/
theorem startFollowsRule : Obligations.StartFollowsRule := by
  unfold Obligations.StartFollowsRule
  intro s i m hi
  have hexec : exec i s = start m s := StartsIn.exec_eq hi s
  refine ⟨fun hb => ?idle, fun hb => ?busy⟩
  case idle =>
    rw [hexec, start_of_idle m hb, s.beginSession_eq m]
    rfl
  case busy => exact hexec.trans (start_of_busy m hb)

/-! ## A start within a session (R145) -/

theorem exec_stop (s : State) : exec .stop s = .next (s.endSession.respond .ok []) := rfl

/-- A stop frees the guard, so a `SEND` right after it begins a session. -/
theorem exec_send_after_stop (s : State) :
    exec .send (s.endSession.respond .ok []) =
      .next (((s.endSession.respond .ok []).beginSession .single).respond .ok []) :=
  (exec_send _).trans (start_of_idle .single s.endSession_busy)

/-- Settles O17: a held guard turns every start away with an answer that writes no state; a stop frees it, and the
`SEND` after it begins a session in its own mode with a full count, whatever the session before was. -/
theorem startWhileBusyIsRejected : Obligations.StartWhileBusyIsRejected := by
  unfold Obligations.StartWhileBusyIsRejected
  refine ⟨?rejected, ?stopThenSend⟩
  case rejected =>
    intro s i hb hi
    obtain ⟨m, hm⟩ := exists_startsIn hi
    obtain ⟨hsession, hmodel, hcodeword⟩ := s.respond_keepsSession .busy []
    exact ⟨_, (hm.exec_eq s).trans (start_of_busy m hb), rfl, hsession, hcodeword hb, hmodel⟩
  case stopThenSend =>
    intro s _ _
    exact ⟨_, _, exec_stop s, exec_send_after_stop s, rfl, rfl, rfl, rfl⟩

end Sys2Proof.Machine
end

section
/-! The timer expiry (43_timer_expiry.md R161 to R165): what an expiry writes at each place of a pass, and the interval
it arms. -/

namespace Sys2Proof.Machine

/-! ## Durations and levels -/

/-- `DUR` (R103). -/
theorem flagDur_eq_ite (f : Flag) : flagDur f = if f = .wide then .u3 else .u1 := by
  cases f <;> rfl

/-- `1 - LINE` (R161). -/
theorem flipLevel_eq_ite (l : Level) : flipLevel l = if l = .high then .low else .high := by
  cases l <;> rfl

/-- Arming an armed timer writes its duration alone (R32). -/
theorem State.arm_of_armed {s : State} (ha : s.tmrArmed = true) (d : Dur) : s.arm d = { s with tmrDur := d } := by
  rw [State.arm, ← ha]

/-! ## The writes of an expiry (R161) -/

/-- An armed timer has its step (R160). -/
theorem exec_timerExpire_of_armed {s : State} (ha : s.tmrArmed = true) : exec .timerExpire s = .next s.expire :=
  if_pos ha

/-- A step of the timer is an expiry (R161). -/
theorem eq_expire_of_exec {s t : State} (h : exec .timerExpire s = .next t) : t = s.expire := by
  obtain ⟨-, h'⟩ | ⟨-, h'⟩ := execTimerExpire_cases s <;> cases h'.symm.trans h
  rfl

/-- Within the flags (R161, step 5). The disarming at the head of the step is undone by the arming at its end. -/
theorem State.expire_inside (s : State) (h : s.pos.val < 48) :
    s.expire = (((s.driveLine (flipLevel s.line)).silent).setCounts ⟨s.pos.val + 1, by omega⟩ s.rem).arm
      (flagDur (s.bits[s.pos.val + 1]'(by omega))) :=
  advance_inside ((s.disarm.driveLine (flipLevel s.line)).silent) h

/-- After the last flag (R161, step 4). -/
theorem State.expire_sync (s : State) (h : s.pos.val = 48) :
    s.expire = (((s.driveLine (flipLevel s.line)).silent).setCounts 49 s.rem).arm syncDur :=
  advance_sync ((s.disarm.driveLine (flipLevel s.line)).silent) h

/-- After the sync interval (R161, step 3): a completion leaves the timer as the head of the step disarmed it, a
repetition arms it again, and either overwrites the flipped line. -/
theorem State.expire_last_cases (s : State) (h : s.pos.val = 49) :
    (s.mode = .single ∧ s.rem - 1 = 0 ∧ s.expire = s.disarm.silent.completeSession) ∨
    (s.mode = .single ∧ s.rem - 1 ≠ 0 ∧ s.expire = s.silent.repeatPass (s.rem - 1)) ∨
    (s.mode = .cont ∧ s.expire = s.silent.repeatPass s.rem) := by
  have hlast : s.expire = ((s.disarm.driveLine (flipLevel s.line)).silent).endPass := advance_last _ h
  rw [hlast]
  exact endPass_cases ((s.disarm.driveLine (flipLevel s.line)).silent)

/-- The last pass ends in the completion (R162). -/
theorem State.expire_completes {s : State} (h : s.pos.val = 49) (hm : s.mode = .single) (hr : s.rem - 1 = 0) :
    s.expire = s.disarm.silent.completeSession := by
  obtain ⟨-, -, he⟩ | ⟨-, hr', -⟩ | ⟨hm', -⟩ := s.expire_last_cases h
  · exact he
  · exact absurd hr hr'
  · cases hm.symm.trans hm'

/-- A pass of a session that goes on is followed by the next (R163). -/
theorem State.expire_repeats {s : State} (h : s.pos.val = 49) (hgo : s.mode = .cont ∨ s.mode = .single ∧ 2 ≤ s.rem) :
    s.expire = s.silent.repeatPass (if s.mode = .single then s.rem - 1 else s.rem) := by
  obtain ⟨hm, hr, -⟩ | ⟨hm, -, he⟩ | ⟨hm, he⟩ := s.expire_last_cases h
  · obtain hc | ⟨-, hr'⟩ := hgo
    · cases hm.symm.trans hc
    · omega
  · rwa [if_pos hm]
  · rwa [if_neg (by simp [hm])]

/-! ## The first interval of a pass (R165) -/

/-- An accepted start arms the first flag of the bitstring it leaves. -/
theorem start_tmr_of_idle {m : Mode} {s t : State} (hb : s.busy = false) (h : start m s = .next t) :
    t.tmrArmed = true ∧ t.tmrDur = flagDur t.bits[0] := by
  cases (start_of_idle m hb).symm.trans h
  simp [State.beginSession]

/-- An expiry at the end of a pass that leaves the timer armed is a repetition, which arms the first flag. -/
theorem State.expire_last_tmrDur {s : State} (h : s.pos.val = 49) (ha : s.expire.tmrArmed = true) :
    s.expire.tmrDur = flagDur s.expire.bits[0] := by
  obtain ⟨-, -, he⟩ | ⟨-, -, he⟩ | ⟨-, he⟩ := s.expire_last_cases h
  · rw [he] at ha
    cases ha
  · rw [he]; rfl
  · rw [he]; rfl

/-! ## The statements -/

/-- Settles O22: within the flags the step ends by arming the flag at the new position, and a start and a repetition
arm flag 0. -/
theorem flagIntervalsAreArmed : Obligations.FlagIntervalsAreArmed := by
  unfold Obligations.FlagIntervalsAreArmed
  simp only [← flagDur_eq_ite, ← flipLevel_eq_ite]
  refine ⟨?inside, ?start, ?repetition⟩
  case inside =>
    intro s h ha
    rw [exec_timerExpire_of_armed ha, s.expire_inside h, State.arm_of_armed]
    · rfl
    · exact ha
  case start => exact fun s t h hb => h.elim (start_tmr_of_idle hb) (start_tmr_of_idle hb)
  case repetition =>
    intro s t h hpos ha
    cases eq_expire_of_exec h
    exact State.expire_last_tmrDur (congrArg Fin.val hpos) ha

/-- Settles O23: at position 48 the invariants have the timer armed and the line high, and the step flips it. -/
theorem syncIntervalIsArmed : Obligations.SyncIntervalIsArmed := by
  unfold Obligations.SyncIntervalIsArmed
  intro s hinv hb hpos
  have ha : s.tmrArmed = true := hinv.guardIsTimer.symm.trans hb
  have hline : flipLevel s.line = .low := by rw [hinv.levelOfPos hb, hpos]; rfl
  refine ⟨?_, rfl⟩
  rw [exec_timerExpire_of_armed ha, s.expire_sync (congrArg Fin.val hpos), State.arm_of_armed, hline]
  · rfl
  · exact ha

/-- Settles O24: the session goes on, so the end of the pass is a repetition, and it finds the timer armed. -/
theorem passRepeats : Obligations.PassRepeats := by
  unfold Obligations.PassRepeats
  intro s ha hpos hgo
  rw [exec_timerExpire_of_armed ha, State.expire_repeats (congrArg Fin.val hpos) hgo, State.repeatPass,
    State.arm_of_armed, flagDur_eq_ite]
  · rfl
  · exact ha

/-- Settles O25: with one pass remaining the end of the pass is the completion. -/
theorem sessionCompletes : Obligations.SessionCompletes := by
  unfold Obligations.SessionCompletes
  intro s ha hpos hm hr
  rw [exec_timerExpire_of_armed ha, State.expire_completes (congrArg Fin.val hpos) hm (by rw [hr])]
  rfl

end Sys2Proof.Machine
end

section
/-! The errors (60_exceptions.md R180 to R184): which requests carry a bad argument, which need the guard, and the one
answer each host request ends in. -/

namespace Sys2Proof.Machine

/-! ## The two causes of R180 -/

/-- The request's argument is invalid: a set's payload (R75 to R77, R120), or the value of a trigger (R140). -/
def BadArgument : Instr → Prop
  | .setAddress p => ¬TriPayload p 10
  | .setCommand p => ¬BinPayload p 2
  | .setCodeword p => ¬TriPayload p 12
  | .trigger v => v ≠ 0 ∧ v ≠ 1 ∧ v ≠ 2
  | _ => False

/-- The request needs the guard free: a set with a valid payload, or a start (R58). -/
def NeedsGuard : Instr → Prop
  | .setAddress p => TriPayload p 10
  | .setCommand p => BinPayload p 2
  | .setCodeword p => TriPayload p 12
  | .trigger v => v = 1 ∨ v = 2
  | .send => True
  | .sendCont => True
  | _ => False

theorem badArgument_iff (i : Instr) :
    BadArgument i ↔ (∃ p, i = .setAddress p ∧ ¬TriPayload p 10) ∨ (∃ p, i = .setCommand p ∧ ¬BinPayload p 2) ∨
      (∃ p, i = .setCodeword p ∧ ¬TriPayload p 12) ∨ (∃ v : Int, i = .trigger v ∧ v ≠ 0 ∧ v ≠ 1 ∧ v ≠ 2) := by
  cases i <;> simp [BadArgument]

theorem needsGuard_iff (i : Instr) :
    NeedsGuard i ↔ (∃ p, i = .setAddress p ∧ TriPayload p 10) ∨ (∃ p, i = .setCommand p ∧ BinPayload p 2) ∨
      (∃ p, i = .setCodeword p ∧ TriPayload p 12) ∨ i = .trigger 1 ∨ i = .trigger 2 ∨ i = .send ∨ i = .sendCont := by
  cases i <;> simp [NeedsGuard]

/-- The argument is checked before the guard, so the two causes exclude each other (R183). -/
theorem BadArgument.not_needsGuard {i : Instr} (h : BadArgument i) : ¬NeedsGuard i := by
  cases i with
  | setAddress p | setCommand p | setCodeword p => exact h
  | trigger v =>
    obtain ⟨-, h1, h2⟩ := h
    exact fun hv => hv.elim h1 h2
  | _ => exact h.elim

/-! ## The answer to a host request -/

/-- How a host request `i`, run in `s`, is answered in the state after it. -/
inductive HostAnswer (i : Instr) (s : State) : State → Prop where
  /-- the argument is invalid, whatever the guard is (R180, R183) -/
  | invalid (hi : BadArgument i) : HostAnswer i s (s.respond .invalidArgument [])
  /-- the request needs the guard, and it is held (R180) -/
  | busy (hi : NeedsGuard i) (hb : s.busy = true) : HostAnswer i s (s.respond .busy [])
  /-- neither cause holds -/
  | ok {t : State} {d : List Byte} (hi : ¬BadArgument i) (hg : NeedsGuard i → s.busy = false)
      (hr : t.response = some ⟨.ok, d⟩) : HostAnswer i s t

/-- A set whose field decodes exactly the payloads with `P`. -/
theorem HostAnswer.of_setField {i : Instr} {P : Prop} {α : Type} {field : Option α} {write : α → State → State}
    {s t : State} (hP : (∃ v, field = some v) ↔ P) (hbad : BadArgument i ↔ ¬P) (hneed : NeedsGuard i ↔ P)
    (h : setField field write s = .next t) : HostAnswer i s t := by
  obtain ⟨hf, h'⟩ | ⟨v, hf, hb, h'⟩ | ⟨v, hf, hb, h'⟩ := setField_cases field write s <;> cases h'.symm.trans h
  · have hnot : ¬P := fun p => by simpa [hf] using hP.2 p
    exact .invalid (hbad.2 hnot)
  · exact .busy (hneed.2 (hP.1 ⟨v, hf⟩)) hb
  · have hvalid : P := hP.1 ⟨v, hf⟩
    exact .ok (fun hi => hbad.1 hi hvalid) (fun _ => hb) rfl

/-- A start. -/
theorem HostAnswer.of_start {i : Instr} {m : Mode} {s t : State} (hneed : NeedsGuard i)
    (h : start m s = .next t) : HostAnswer i s t := by
  obtain ⟨hb, h'⟩ | ⟨hb, h'⟩ := start_cases m s <;> cases h'.symm.trans h
  · exact .busy hneed hb
  · exact .ok (fun hi => hi.not_needsGuard hneed) (fun _ => hb) rfl

/-- A trigger (R140). -/
theorem HostAnswer.of_trigger {v : Int} {s t : State} (h : execTrigger v s = .next t) :
    HostAnswer (.trigger v) s t := by
  obtain ⟨rfl, h'⟩ | ⟨rfl, h'⟩ | ⟨rfl, h'⟩ | ⟨h0, h1, h2, h'⟩ := execTrigger_cases v s <;> rw [h'] at h
  · cases h
    exact .ok (by simp [BadArgument]) (by simp [NeedsGuard]) rfl
  · exact .of_start (.inl rfl) h
  · exact .of_start (.inr rfl) h
  · cases h
    exact .invalid ⟨h0, h1, h2⟩

/-- Every host request that has a next state is answered in one of the three ways. -/
theorem exec_hostAnswer {i : Instr} {s t : State} (hi : i.isHost = true) (h : exec i s = .next t) :
    HostAnswer i s t := by
  cases i with
  | getAddress | getCommand | getCodeword | stop => cases h; exact .ok id False.elim rfl
  | setAddress p => exact .of_setField (exists_decodeField_tri_iff 10 p) .rfl .rfl h
  | setCommand p => exact .of_setField (exists_decodeField_bin_iff 2 p) .rfl .rfl h
  | setCodeword p => exact .of_setField (exists_decodeField_tri_iff 12 p) .rfl .rfl h
  | trigger v => exact .of_trigger h
  | send | sendCont => exact .of_start trivial h
  | timerExpire | reset => cases hi
  | reserved06 | reserved0A0B | reserved0C0F | reserved101F | reserved203F | reserved407F | reserved80FF =>
    exact (refuseReserved_ne_next _ s t h).elim

/-! ## The statements -/

/-- Settles O30: of the three ways to answer, the two that are errors write the response alone. -/
theorem errorsWriteNothing : Obligations.ErrorsWriteNothing := by
  unfold Obligations.ErrorsWriteNothing
  intro i s t r hi h hr hne
  cases exec_hostAnswer hi h with
  | invalid _ | busy _ _ => cases hr; exact ⟨rfl, rfl⟩
  | ok _ _ hok => cases hok.symm.trans hr; exact absurd rfl hne

/-- Settles O31: each way to answer comes with its cause, and a bad argument and the need of the guard exclude each
other. -/
theorem errorCauses : Obligations.ErrorCauses := by
  unfold Obligations.ErrorCauses
  refine ⟨rfl, rfl, ?_⟩
  intro i s t r hi h hr
  rw [← badArgument_iff, ← needsGuard_iff]
  cases exec_hostAnswer hi h with
  | invalid hbad => cases hr; simp [hbad, hbad.not_needsGuard]
  | busy hneed hb =>
    have hgood : ¬BadArgument i := fun hbad => hbad.not_needsGuard hneed
    cases hr
    simp [hgood, hneed, hb]
  | ok hgood hguard hok =>
    have hfree : ¬(s.busy = true ∧ NeedsGuard i) := fun ⟨hb, hneed⟩ => by simp [hguard hneed] at hb
    cases hok.symm.trans hr
    simp [hgood, hfree]

end Sys2Proof.Machine
end

section
/-! Runs of a continuous session (70_reset_and_hazards.md R216): what every expiry keeps of it, and the stop that ends
it. -/

namespace Sys2Proof.Machine

/-- A continuous session is in flight, and its next expiry is pending (R28, R29, R32). -/
structure State.RunsContinuously (s : State) : Prop where
  busy : s.busy = true
  mode : s.mode = .cont
  armed : s.tmrArmed = true

/-- With the invariants, a held guard has the timer armed (I1 of R34). -/
theorem State.Inv.runsContinuously {s : State} (hinv : s.Inv) (hb : s.busy = true) (hm : s.mode = .cont) :
    s.RunsContinuously :=
  ⟨hb, hm, hinv.guardIsTimer.symm.trans hb⟩

/-- No place of a pass ends a continuous session: within the flags and at the sync interval the step arms the next
interval (R161), and the end of the pass is always a repetition (R163). -/
theorem State.RunsContinuously.expire {s : State} (h : s.RunsContinuously) : s.expire.RunsContinuously := by
  obtain ⟨hb, hm, -⟩ := h
  obtain hpos | hpos | hpos : s.pos.val < 48 ∨ s.pos.val = 48 ∨ s.pos.val = 49 := by omega
  · rw [s.expire_inside hpos]
    exact ⟨hb, hm, rfl⟩
  · rw [s.expire_sync hpos]
    exact ⟨hb, hm, rfl⟩
  · rw [State.expire_repeats hpos (.inl hm)]
    exact ⟨hb, hm, rfl⟩

/-- A run of expiries from an armed timer begins with one expiry. -/
theorem expiries_succ_of_armed (k : Nat) {s : State} (ha : s.tmrArmed = true) :
    expiries (k + 1) s = expiries k s.expire := by
  rw [expiries, exec_timerExpire_of_armed ha]

/-- Any number of expiries takes place and leaves a continuous session running. -/
theorem State.RunsContinuously.exists_expiries {s : State} (h : s.RunsContinuously) (k : Nat) :
    ∃ t, expiries k s = .next t ∧ t.RunsContinuously := by
  induction k generalizing s with
  | zero => exact ⟨s, rfl, h⟩
  | succ k ih =>
    rw [expiries_succ_of_armed k h.armed]
    exact ih h.expire

/-- A stop leaves Idle, whatever it ends (R33, R141). -/
theorem State.endSession_idle (s : State) : s.endSession.Idle := ⟨rfl, rfl, rfl, rfl, rfl⟩

/-- Settles O38: the expiries keep the session running, by induction on their number, and a stop leaves Idle from any
state. -/
theorem continuousSessionNeverEnds : Obligations.ContinuousSessionNeverEnds := by
  unfold Obligations.ContinuousSessionNeverEnds
  intro s hinv hb hm k
  obtain ⟨t, hrun, hbusy, hmode, harmed⟩ := (hinv.runsContinuously hb hm).exists_expiries k
  exact ⟨t, _, hrun, hbusy, hmode, harmed, exec_stop t, t.endSession_idle⟩

end Sys2Proof.Machine
end

section
/-! The invariants I1 to I7 (10_state.md R34): what an Idle and what a sending state owe them, and that every effect of
an instruction keeps them. The statements about STOP while Idle, about the timer's enabling and about REM rest on
them. -/

namespace Sys2Proof.Machine

/-! ## The two controller states (R33) -/

/-- An Idle state with legal parameters meets the invariants: the others speak of a session. -/
theorem State.Inv.of_idle {s : State} (hlegal : s.params.Legal) (hidle : s.Idle) : s.Inv := by
  obtain ⟨hbusy, harmed, hline, hpos, hrem⟩ := hidle
  refine ⟨hlegal, ?_, ?_, ?_, ?_, ?_, ?_, ?_, ?_, ?_⟩ <;> simp_all

/-- With the guard free the invariants leave one session: none. -/
theorem State.Inv.idle {s : State} (hinv : s.Inv) (hb : s.busy = false) : s.Idle :=
  ⟨hb, hinv.guardIsTimer.symm.trans hb, hinv.idleLine hb, hinv.idlePos hb, hinv.idleRem hb⟩

/-- What the invariants ask of a session in flight. -/
theorem State.Inv.of_sending {s : State} (hlegal : s.params.Legal) (hbusy : s.busy = true) (harmed : s.tmrArmed = true)
    (hbits : s.bits = encodeCodeword s.codeword)
    (hsingle : s.mode = .single → 1 ≤ s.rem ∧ s.rem ≤ s.params.nSingle) (hcont : s.mode = .cont → s.rem = 0)
    (hline : s.line = levelAt s.pos.val) (hdur : s.tmrDur = interval s.bits s.pos) : s.Inv := by
  refine ⟨hlegal, ?_, ?_, ?_, ?_, ?_, ?_, ?_, ?_, ?_⟩ <;> simp_all

/-- The invariants do not speak of the response. -/
theorem State.Inv.respond {s : State} (h : s.Inv) (st : Status) (d : List Byte) : (s.respond st d).Inv :=
  { h with }

/-- The invariants do not speak of the inputs. -/
theorem State.Inv.withInputs {s : State} (h : s.Inv) (l : List Input) : State.Inv { s with inputs := l } :=
  { h with }

/-- With the invariants, an armed timer belongs to a session (I1). -/
theorem State.Inv.busy_of_armed {s : State} (h : s.Inv) (ha : s.tmrArmed = true) : s.busy = true :=
  h.guardIsTimer.trans ha

/-! ## The interval and the level of a position (R104, R105) -/

/-- The level alternates along a pass. -/
theorem levelAt_succ (p : Nat) : levelAt (p + 1) = flipLevel (levelAt p) := by
  obtain h | h : p % 2 = 0 ∨ p % 2 = 1 := by omega
  · have h' : (p + 1) % 2 = 1 := by omega
    simp [levelAt, flipLevel, h, h']
  · have h' : (p + 1) % 2 = 0 := by omega
    simp [levelAt, flipLevel, h, h']

theorem interval_of_lt (bits : Vector Flag 49) {p : Fin 50} (h : p.val < 49) : interval bits p = flagDur bits[p.val] :=
  dif_pos h

/-! ## Each effect keeps the invariants -/

@[simp] theorem State.beginSession_codeword (m : Mode) (s : State) : (s.beginSession m).codeword = s.codeword := by
  rw [s.beginSession_eq]
  rfl

/-- A start leaves a session at the head of its first pass (R142). -/
theorem State.Inv.beginSession {s : State} (h : s.Inv) (m : Mode) : (s.beginSession m).Inv := by
  have hbits : (s.beginSession m).bits = encodeCodeword (s.beginSession m).codeword := by
    rw [s.beginSession_bits, s.beginSession_codeword, State.codeword]
  have hdur : (s.beginSession m).tmrDur = interval (s.beginSession m).bits 0 := by
    simp [State.beginSession, interval_of_lt]
  refine .of_sending h.legal rfl rfl hbits ?_ ?_ rfl hdur
  · rintro rfl
    exact ⟨h.legal.1, le_rfl⟩
  · rintro rfl
    rfl

/-- The next pass begins as the first one did (R163). -/
theorem State.Inv.repeatPass {s : State} {n : Nat} (h : s.Inv) (hb : s.busy = true)
    (hsingle : s.mode = .single → 1 ≤ n ∧ n ≤ s.params.nSingle) (hcont : s.mode = .cont → n = 0) :
    (s.repeatPass n).Inv :=
  .of_sending h.legal hb rfl (h.bitsCurrent hb) hsingle hcont rfl rfl

/-- An expiry moves the level, the position and the armed interval together (R161). -/
theorem State.Inv.expire {s : State} (h : s.Inv) (hb : s.busy = true) : s.expire.Inv := by
  have hline : flipLevel s.line = levelAt (s.pos.val + 1) := by rw [levelAt_succ, h.levelOfPos hb]
  obtain hpos | hpos | hpos : s.pos.val < 48 ∨ s.pos.val = 48 ∨ s.pos.val = 49 := by omega
  · rw [s.expire_inside hpos]
    exact .of_sending h.legal hb rfl (h.bitsCurrent hb) (h.singleRem hb) h.contRem hline
      (interval_of_lt s.bits (p := ⟨s.pos.val + 1, by omega⟩) (by simp; omega)).symm
  · rw [hpos] at hline
    rw [s.expire_sync hpos]
    exact .of_sending h.legal hb rfl (h.bitsCurrent hb) (h.singleRem hb) h.contRem hline rfl
  · obtain ⟨-, -, he⟩ | ⟨hm, hr, he⟩ | ⟨hm, he⟩ := s.expire_last_cases hpos <;> rw [he]
    · exact .of_idle h.legal ⟨rfl, rfl, rfl, rfl, rfl⟩
    · obtain ⟨-, hmax⟩ := h.singleRem hb hm
      have hinv : s.silent.Inv := { h with }
      exact hinv.repeatPass hb (fun _ => ⟨by omega, by simp; omega⟩) (fun hc => by cases hm.symm.trans hc)
    · have hinv : s.silent.Inv := { h with }
      exact hinv.repeatPass hb (fun hs => by cases hm.symm.trans hs) h.contRem

/-- Each of the six effects keeps the invariants. -/
theorem Effect.keepsInv {s t : State} (h : Effect s t) (hinv : s.Inv) : t.Inv := by
  cases h with
  | answer st d => exact hinv.respond st d
  | store a c hb => exact .of_idle hinv.legal (hinv.idle hb)
  | begin m hb => exact (hinv.beginSession m).respond .ok []
  | stop => exact .of_idle hinv.legal s.endSession_idle
  | expire ha => exact hinv.expire (hinv.busy_of_armed ha)
  | reset => exact .of_idle hinv.legal s.endSession_idle

/-! ## The statements about every step and every run -/

/-- Settles O3: a step waits or has an effect, and every effect keeps the invariants. -/
theorem stepKeepsInvariant : Obligations.StepKeepsInvariant := by
  unfold Obligations.StepKeepsInvariant
  intro s t hinv h
  obtain rfl | he | he := step_effect h
  · exact hinv
  · exact he.keepsInv hinv
  · exact he.keepsInv (hinv.withInputs s.inputs.tail)

/-- Settles O2: the state after reset is Idle, and its parameters are those it was given. -/
theorem resetMeetsInvariant : Obligations.ResetMeetsInvariant := by
  unfold Obligations.ResetMeetsInvariant
  intro p b d l hp
  exact .of_idle hp ⟨rfl, rfl, rfl, rfl, rfl⟩

/-- Settles O4: the invariants hold after reset, do not speak of the inputs, and are kept by every step. -/
theorem reachableStatesMeetInvariant : Obligations.ReachableStatesMeetInvariant := by
  unfold Obligations.ReachableStatesMeetInvariant
  intro s hs
  induction hs with
  | reset p hp b d => exact resetMeetsInvariant p b d [] hp
  | queue s l _ ih => exact ih.withInputs l
  | step s t _ h ih => exact stepKeepsInvariant s t ih h

/-- The parameters at reset are legal: the width has a bit more than `N_SINGLE` needs. -/
theorem config_params_legal : Config.params.Legal := by
  refine ⟨Nat.succ_pos _, ?_⟩
  calc Config.nSingle < 2 ^ (Config.nSingle.log2 + 1) := Nat.lt_log2_self
    _ ≤ 2 ^ (Config.nSingle.log2 + 1 + Config.remWSpare) := Nat.pow_le_pow_right (by decide) (Nat.le_add_right _ _)

/-- Settles O1: each field of the reset state is the value R37 gives. -/
theorem resetStateIsIdle : Obligations.ResetStateIsIdle := by
  unfold Obligations.ResetStateIsIdle
  exact ⟨⟨rfl, rfl, rfl, rfl, rfl⟩, rfl, rfl, rfl, config_params_legal⟩

/-! ## STOP while Idle (R141) -/

/-- In Idle a stop finds every register that it writes at the value it writes. -/
theorem State.endSession_of_idle {s : State} (h : s.Idle) : s.endSession = s := by
  obtain ⟨hbusy, harmed, hline, hpos, hrem⟩ := h
  cases s
  simp_all [State.endSession, State.disarm, State.driveLine, State.releaseGuard, State.setCounts]

/-- Settles O15: with the invariants a free guard is Idle, where a stop writes nothing. -/
theorem stopWhileIdleIsNoOp : Obligations.StopWhileIdleIsNoOp := by
  unfold Obligations.StopWhileIdleIsNoOp
  intro s hinv hb
  rw [exec_stop, State.endSession_of_idle (hinv.idle hb)]
  rfl

/-! ## When the timer has a step (R160) -/

theorem exec_timerExpire_iff_armed (s : State) : (∃ t, exec .timerExpire s = .next t) ↔ s.tmrArmed = true := by
  refine ⟨fun ⟨t, h⟩ => ?_, fun ha => ⟨_, exec_timerExpire_of_armed ha⟩⟩
  obtain ⟨ha, -⟩ | ⟨-, h'⟩ := execTimerExpire_cases s
  · exact ha
  · cases h'.symm.trans h

theorem exec_timerExpire_of_disarmed {s : State} (ha : s.tmrArmed = false) :
    exec .timerExpire s = .refused .timerNotArmed :=
  if_neg (by simp [ha])

/-- Settles O21: the step needs the timer armed, which with the invariants is the guard held; a stop disarms the timer,
and so does an expiry that frees the guard. -/
theorem expiryEnabledOnlyWhenArmed : Obligations.ExpiryEnabledOnlyWhenArmed := by
  unfold Obligations.ExpiryEnabledOnlyWhenArmed
  refine ⟨exec_timerExpire_iff_armed, ?busy, ?cancelled, ?oneShot⟩
  case busy =>
    intro s hinv
    rw [exec_timerExpire_iff_armed, hinv.guardIsTimer]
  case cancelled =>
    intro s t h
    cases (exec_stop s).symm.trans h
    exact exec_timerExpire_of_disarmed rfl
  case oneShot =>
    intro s t hinv h hb
    have htinv : t.Inv := (exec_effect h).keepsInv hinv
    exact exec_timerExpire_of_disarmed (htinv.guardIsTimer.symm.trans hb)

/-! ## REM (R30, R169) -/

/-- In either controller state and either mode REM is at most the passes of a single frame. -/
theorem State.Inv.rem_le {s : State} (h : s.Inv) : s.rem ≤ s.params.nSingle := by
  cases hb : s.busy with
  | false => simp [h.idleRem hb]
  | true =>
    cases hm : s.mode with
    | single => exact (h.singleRem hb hm).2
    | cont => simp [h.contRem hm]

/-- The end of a pass takes one from REM in single mode, and the completion leaves the 0 that this is. -/
theorem State.expire_last_rem {s : State} (hpos : s.pos.val = 49) (hm : s.mode = .single) :
    s.expire.rem = s.rem - 1 := by
  obtain ⟨-, hr, he⟩ | ⟨-, -, he⟩ | ⟨hc, -⟩ := s.expire_last_cases hpos
  · rw [he, hr]
    rfl
  · rw [he]
    rfl
  · cases hm.symm.trans hc

/-- Settles O34: REM is at most N_SINGLE, which fits the width, and a session in flight has a pass left to count. -/
theorem remFitsItsWidth : Obligations.RemFitsItsWidth := by
  unfold Obligations.RemFitsItsWidth
  intro s hinv
  have hfits : s.rem < 2 ^ s.params.remW := hinv.rem_le.trans_lt hinv.legal.2
  refine ⟨hinv.rem_le, by rw [packRem, BitVec.toNat_ofNat, Nat.mod_eq_of_lt hfits], ?_⟩
  intro t h hpos hm
  have hb : s.busy = true := hinv.busy_of_armed ((exec_timerExpire_iff_armed s).1 ⟨t, h⟩)
  obtain ⟨hmin, -⟩ := hinv.singleRem hb hm
  cases eq_expire_of_exec h
  rw [State.expire_last_rem (congrArg Fin.val hpos) hm]
  exact ⟨hmin, by omega⟩

end Sys2Proof.Machine
end

section
/-! Decoding and encoding (30_encoding.md R70 to R74, R83): what a header byte decodes to, what a request decodes to, and
the step on an issued request. -/

namespace Sys2Proof

/-! ## The header byte (R71, R73) -/

/-- The payload kind of what a header decodes to (R70). -/
def HeaderOp.kind : HeaderOp → Option PayloadKind
  | .bare _ => some .none
  | .set _ => some .str
  | .trigger => some .int
  | .reserved _ => none

/-- The instruction of a header with the zero payload of its kind. -/
def HeaderOp.zeroInstr : HeaderOp → Instr
  | .bare i => i
  | .set f => f.withPayload []
  | .trigger => .trigger 0
  | .reserved i => i

/-- The decoder and the table of R71 agree on the kind of the payload. -/
theorem headerKind_eq : ∀ op : Byte, headerKind op = (decodeHeader op).kind := by decide

/-- What a header decodes to encodes to the header with the zero payload, and is no pseudo-instruction. -/
theorem encode_zeroInstr :
    ∀ op : Byte, encode (decodeHeader op).zeroInstr = ⟨op, zeroPayload op⟩ ∧ (decodeHeader op).zeroInstr.wf = true := by
  decide

/-- One row of the opcode table covers a header, and the row has the mnemonic of what the header decodes to. -/
theorem opcodeTable_covers : ∀ op : Byte,
    (opcodeTable.filter fun row => row.covers op).map OpcodeRow.mnemonic = [(decodeHeader op).zeroInstr.mnemonic] := by
  decide

/-- The reserved headers (R73). -/
theorem headerKind_eq_none_iff : ∀ op : Byte, headerKind op = none ↔ op = 0x06 ∨ 0x0A ≤ op.toNat := by decide

/-! ### The reserved rows, with their free bits at every value -/

theorem decodeHeader_0A0B : ∀ x : BitVec 1, decodeHeader (0b0000101#7 ++ x) = .reserved (.reserved0A0B x) := by decide
theorem decodeHeader_0C0F : ∀ x : BitVec 2, decodeHeader (0b000011#6 ++ x) = .reserved (.reserved0C0F x) := by decide
theorem decodeHeader_101F : ∀ x : BitVec 4, decodeHeader (0b0001#4 ++ x) = .reserved (.reserved101F x) := by decide
theorem decodeHeader_203F : ∀ x : BitVec 5, decodeHeader (0b001#3 ++ x) = .reserved (.reserved203F x) := by decide
theorem decodeHeader_407F : ∀ x : BitVec 6, decodeHeader (0b01#2 ++ x) = .reserved (.reserved407F x) := by decide
theorem decodeHeader_80FF : ∀ x : BitVec 7, decodeHeader (0b1#1 ++ x) = .reserved (.reserved80FF x) := by decide

/-! ## The request (R70, R74) -/

/-- A reserved header decodes to its row, whatever the payload (log 9). -/
theorem decode_of_reserved {r : Request} {i : Instr} (h : decodeHeader r.op = .reserved i) : decode r = .ok i := by
  simp [decode, h, attachPayload]

/-- A request that decodes is reserved, or its payload has the kind of its header and is the operand. -/
theorem decode_ok_cases {r : Request} {i : Instr} (h : decode r = .ok i) :
    decodeHeader r.op = .reserved i ∨
    (decodeHeader r.op = .bare i ∧ r.payload = .none) ∨
    (∃ f p, decodeHeader r.op = .set f ∧ r.payload = .str p ∧ i = f.withPayload p) ∨
    (∃ v, decodeHeader r.op = .trigger ∧ r.payload = .int v ∧ i = .trigger v) := by
  unfold decode attachPayload at h
  split at h
  · rename_i hh hp
    cases h
    exact .inr (.inl ⟨hh, hp⟩)
  · rename_i f p hh hp
    cases h
    exact .inr (.inr (.inl ⟨f, p, hh, hp, rfl⟩))
  · rename_i v hh hp
    cases h
    exact .inr (.inr (.inr ⟨v, hh, hp, rfl⟩))
  · rename_i hh
    cases h
    exact .inl hh
  · cases h

/-- A header without payload decodes to its instruction alone. -/
theorem decode_ok_of_bare {r : Request} {i j : Instr} (hj : decodeHeader r.op = .bare j) (h : decode r = .ok i) :
    i = j := by
  obtain hi | ⟨hi, -⟩ | ⟨f, p, hi, -⟩ | ⟨v, hi, -⟩ := decode_ok_cases h <;> cases hj.symm.trans hi
  rfl

/-- An operand changes neither the header nor the row of what a header decodes to. -/
theorem decode_ok_header {r : Request} {i : Instr} (h : decode r = .ok i) :
    i.wf = true ∧ (encode i).op = r.op ∧ i.mnemonic = (decodeHeader r.op).zeroInstr.mnemonic := by
  obtain ⟨henc, hwf⟩ := encode_zeroInstr r.op
  have hop := congrArg Request.op henc
  obtain hi | ⟨hi, -⟩ | ⟨f, p, hi, -, rfl⟩ | ⟨v, hi, -, rfl⟩ := decode_ok_cases h <;> rw [hi] at hwf hop ⊢
  · exact ⟨hwf, hop, rfl⟩
  · exact ⟨hwf, hop, rfl⟩
  · cases f <;> exact ⟨rfl, hop, rfl⟩
  · exact ⟨rfl, hop, rfl⟩

/-- Outside the reserved headers the payload is kept too. -/
theorem decode_ok_payload {r : Request} {i : Instr} (h : decode r = .ok i) (hk : headerKind r.op ≠ none) :
    (encode i).payload = r.payload := by
  obtain ⟨henc, -⟩ := encode_zeroInstr r.op
  obtain hi | ⟨hi, hp⟩ | ⟨f, p, hi, hp, rfl⟩ | ⟨v, hi, hp, rfl⟩ := decode_ok_cases h
  · exact absurd ((decodeHeader_reserved_iff r.op).2 ⟨i, hi⟩) hk
  · have hzero : zeroPayload r.op = .none := by simp [zeroPayload, headerKind_eq, hi, HeaderOp.kind]
    rw [hi] at henc
    exact (congrArg Request.payload henc).trans (hzero.trans hp.symm)
  · cases f <;> exact hp.symm
  · exact hp.symm

/-- A payload can be attached exactly when it has the kind of the header (R70). -/
theorem attachPayload_error_iff (h : HeaderOp) (r : Request) :
    (∃ e, attachPayload h r = .error e) ↔ ∃ k, h.kind = some k ∧ k ≠ r.payload.kind := by
  cases h <;> cases hp : r.payload <;> simp [attachPayload, HeaderOp.kind, Payload.kind, hp]

/-- A request is ill-formed when its header fixes another kind than its payload has (R70). -/
theorem Request.wf_eq_false_iff (r : Request) :
    r.wf = false ↔ ∃ k, headerKind r.op = some k ∧ k ≠ r.payload.kind := by
  cases hk : headerKind r.op <;> simp [Request.wf, hk]

/-- Every well-formed instruction decodes from its encoding: the header is its row's, and the payload its operand. -/
theorem decode_encode_of_wf (i : Instr) (h : i.wf = true) : decode (encode i) = .ok i := by
  cases i with
  | getAddress | getCommand | getCodeword | timerExpire | reset | reserved06 => rfl
  | setAddress p | setCommand p | setCodeword p | trigger v => simp [decode, encode, attachPayload, SetOp.withPayload]
  | stop | send | sendCont => cases h
  | reserved0A0B x => exact decode_of_reserved (decodeHeader_0A0B x)
  | reserved0C0F x => exact decode_of_reserved (decodeHeader_0C0F x)
  | reserved101F x => exact decode_of_reserved (decodeHeader_101F x)
  | reserved203F x => exact decode_of_reserved (decodeHeader_203F x)
  | reserved407F x => exact decode_of_reserved (decodeHeader_407F x)
  | reserved80FF x => exact decode_of_reserved (decodeHeader_80FF x)

end Sys2Proof

namespace Sys2Proof.Machine

/-! ## The statements about the encoding -/

/-- Settles O42: row by row, and the pseudo-instructions share the header of TRIGGER. -/
theorem decodeOfEncode : Obligations.DecodeOfEncode := by
  unfold Obligations.DecodeOfEncode
  exact ⟨decode_encode_of_wf, rfl, rfl, rfl⟩

/-- Settles O43: what decodes keeps the header, and outside the reserved headers the payload. -/
theorem encodeOfDecode : Obligations.EncodeOfDecode := by
  unfold Obligations.EncodeOfDecode
  intro r i h
  obtain ⟨hwf, hop, -⟩ := decode_ok_header h
  refine ⟨hwf, hop, fun hk => ?_⟩
  calc encode i = ⟨(encode i).op, (encode i).payload⟩ := rfl
    _ = r := by rw [hop, decode_ok_payload h hk]

/-- Settles O44: both sides say that the header fixes a kind and the payload has another. -/
theorem decodeRejectsWrongKind : Obligations.DecodeRejectsWrongKind := by
  unfold Obligations.DecodeRejectsWrongKind
  intro r
  rw [decode, attachPayload_error_iff, r.wf_eq_false_iff, headerKind_eq]

/-- Settles O45: the table has one row for each header, and the payload does not change the mnemonic. -/
theorem decodeFollowsTheOpcodeTable : Obligations.DecodeFollowsTheOpcodeTable := by
  unfold Obligations.DecodeFollowsTheOpcodeTable
  intro r i h
  obtain ⟨-, -, hname⟩ := decode_ok_header h
  rw [hname]
  exact opcodeTable_covers r.op

/-- Settles O46: the decoder run on each word. -/
theorem wordsDecodeToTheirInstructions : Obligations.WordsDecodeToTheirInstructions := by
  unfold Obligations.WordsDecodeToTheirInstructions
  exact ⟨rfl, rfl, rfl, rfl, rfl, rfl, rfl⟩

/-! ## The step on an issued request (R72, R74) -/

/-- The rest of the inputs, once the first is taken. -/
theorem State.dropInput_of_cons {s : State} {x : Input} {rest : List Input} (hin : s.inputs = x :: rest) :
    s.dropInput = { s with inputs := rest } := by
  rw [State.dropInput, hin]
  rfl

/-- A request that decodes is run when its agent may issue it. -/
theorem step_issue_of_ok {s : State} {a : Agent} {r : Request} {rest : List Input} {i : Instr}
    (hin : s.inputs = .issue a r :: rest) (hd : decode r = .ok i) (ha : i.issuer = a) :
    step s = exec i { s with inputs := rest } := by
  simp [step, fetch, fetchIssue, hin, hd, ha, State.dropInput_of_cons hin]

/-- A request from an agent that may not issue it is refused (R72; log 8). -/
theorem step_issue_of_wrongIssuer {s : State} {a : Agent} {r : Request} {rest : List Input} {i : Instr}
    (hin : s.inputs = .issue a r :: rest) (hd : decode r = .ok i) (ha : i.issuer ≠ a) :
    step s = .refused (.wrongIssuer a r.op) := by
  simp [step, fetch, fetchIssue, hin, hd, ha]

/-- A request that does not decode is refused (log 7). -/
theorem step_issue_of_error {s : State} {a : Agent} {r : Request} {rest : List Input} {op : Byte}
    (hin : s.inputs = .issue a r :: rest) (hd : decode r = .error (.payloadKind op)) :
    step s = .refused (.payloadKind op) := by
  simp [step, fetch, fetchIssue, hin, hd]

/-- An issued request that has a next state decodes, comes from its agent, and is run. -/
theorem step_issue_next {s t : State} {a : Agent} {r : Request} {rest : List Input}
    (hin : s.inputs = .issue a r :: rest) (h : step s = .next t) :
    ∃ i, decode r = .ok i ∧ i.issuer = a ∧ exec i { s with inputs := rest } = .next t := by
  cases hd : decode r with
  | error e =>
    cases e
    cases (step_issue_of_error hin hd).symm.trans h
  | ok i =>
    by_cases ha : i.issuer = a
    · exact ⟨i, rfl, ha, (step_issue_of_ok hin hd ha).symm.trans h⟩
    · cases (step_issue_of_wrongIssuer hin hd ha).symm.trans h

/-- A bare header from another agent than its own is refused, whatever its payload. -/
theorem step_bare_of_wrongIssuer {s : State} {a : Agent} {r : Request} {rest : List Input} {j : Instr}
    (hin : s.inputs = .issue a r :: rest) (hj : decodeHeader r.op = .bare j) (ha : j.issuer ≠ a) :
    ∃ why, step s = .refused why := by
  cases hd : decode r with
  | error e => cases e; exact ⟨_, step_issue_of_error hin hd⟩
  | ok i => cases decode_ok_of_bare hj hd; exact ⟨_, step_issue_of_wrongIssuer hin hd ha⟩

/-- A reserved instruction is refused by its header (R73). -/
theorem exec_of_reserved {i : Instr} (h : headerKind (encode i).op = none) (s : State) :
    exec i s = .refused (.reservedHeader (encode i).op) := by
  cases i with
  | reserved06 | reserved0A0B | reserved0C0F | reserved101F | reserved203F | reserved407F | reserved80FF => rfl
  | _ => cases h

/-- With no input left an armed timer expires (log 1). -/
theorem step_of_no_input_armed {s : State} (hin : s.inputs = []) (ha : s.tmrArmed = true) :
    step s = exec .timerExpire s := by
  simp [step, fetch, hin, ha]

/-- With no input left and the timer disarmed the block waits (log 1). -/
theorem step_of_no_input_disarmed {s : State} (hin : s.inputs = []) (ha : s.tmrArmed = false) : step s = .next s := by
  simp [step, fetch, hin, ha]

/-- Settles O41: the step on an issued request, and the two cases of an empty list. -/
theorem stepRunsTheDecodedInstruction : Obligations.StepRunsTheDecodedInstruction := by
  unfold Obligations.StepRunsTheDecodedInstruction
  exact ⟨fun _ _ _ _ _ => step_issue_of_ok, fun _ => step_of_no_input_armed, fun _ => step_of_no_input_disarmed⟩

/-- Settles O47: a reserved header decodes to its row, which the host may send and whose meaning refuses it. -/
theorem reservedHeadersAreRefused : Obligations.ReservedHeadersAreRefused := by
  unfold Obligations.ReservedHeadersAreRefused
  refine ⟨?request, fun s i h => exec_of_reserved h s, headerKind_eq_none_iff⟩
  intro s r rest hin hk
  obtain ⟨i, hi⟩ := (decodeHeader_reserved_iff r.op).1 hk
  obtain ⟨hop, hissuer, -⟩ := reserved_row_of_header r.op i hi
  rw [step_issue_of_ok hin (decode_of_reserved hi) hissuer, exec_of_reserved (by rwa [hop]), hop]

/-- Settles O48: each of the two headers decodes to its event alone, whose issuer is the one agent that gets a step, and
the timer's event needs the timer armed. -/
theorem internalHeadersAreNotTheHosts : Obligations.InternalHeadersAreNotTheHosts := by
  unfold Obligations.InternalHeadersAreNotTheHosts
  intro s t a r rest hin
  have htimer : r.op = 0x08 → decodeHeader r.op = .bare .timerExpire := fun hop => hop ▸ decodeHeader_08
  have hreset : r.op = 0x09 → decodeHeader r.op = .bare .reset := fun hop => hop ▸ decodeHeader_09
  refine ⟨fun hop h => ?timer, fun hop h => ?platform, fun ha hop => ?host⟩
  case timer =>
    obtain ⟨i, hd, hissuer, hx⟩ := step_issue_next hin h
    cases decode_ok_of_bare (htimer hop) hd
    exact ⟨hissuer.symm, (exec_timerExpire_iff_armed { s with inputs := rest }).1 ⟨t, hx⟩⟩
  case platform =>
    obtain ⟨i, hd, hissuer, -⟩ := step_issue_next hin h
    cases decode_ok_of_bare (hreset hop) hd
    exact hissuer.symm
  case host =>
    cases ha
    obtain hop | hop := hop
    · exact step_bare_of_wrongIssuer hin (htimer hop) (by decide)
    · exact step_bare_of_wrongIssuer hin (hreset hop) (by decide)

end Sys2Proof.Machine
end

section
/-! The host's requests by their rules (41_property_requests.md R121 to R126; 42_trigger_requests.md R140, R141) and the
reset (70_reset_and_hazards.md R210): what each answers and writes, and what repeating it does. -/

namespace Sys2Proof.Machine

/-! ## The symbol a payload byte carries (R76, R77, R78) -/

/-- `bin` is the table of R77. -/
theorem bin_eq_some_iff (b : Byte) (x : Sym) : bin b = some x ↔ (b = 0x30 ∧ x = .s0) ∨ (b = 0x31 ∧ x = .s1) := by
  unfold bin
  split <;> cases x <;> simp_all

/-- The table of R77 is the part of R76's without the floating symbol. -/
theorem bin_carries {b : Byte} {x : Sym} (h : bin b = some x) : x ≠ .sf ∧ Carries b x := by
  obtain ⟨rfl, rfl⟩ | ⟨rfl, rfl⟩ := (bin_eq_some_iff b x).1 h <;> decide

/-- Byte `i` of a decoded payload carries symbol `i` of the field. -/
theorem decodeField_tri_carries {len : Nat} {p : List Byte} {v : Vector Sym len} (h : decodeField tri len p = some v)
    (i : Fin len) : ∃ b, p[i.val]? = some b ∧ Carries b v[i] := by
  obtain ⟨b, hb, hx⟩ := decodeField_getElem h i
  exact ⟨b, hb, (tri_eq_some_iff b v[i]).1 hx⟩

/-- Settles O49: the two alphabets byte by byte, and the three bytes of a get. -/
theorem symbolAlphabets : Obligations.SymbolAlphabets := by
  unfold Obligations.SymbolAlphabets
  exact ⟨tri_eq_some_iff, bin_eq_some_iff, rfl, rfl, rfl⟩

/-! ## The gets (R121, R123, R125) -/

theorem exec_getAddress (s : State) : exec .getAddress s = .next (s.respond .ok (renderField s.addr)) := rfl

theorem exec_getCommand (s : State) : exec .getCommand s = .next (s.respond .ok (renderField s.cmd)) := rfl

theorem exec_getCodeword (s : State) : exec .getCodeword s = .next (s.respond .ok (renderField s.codeword)) := rfl

/-- The first ten symbols of the codeword are the address (R23). -/
theorem State.codeword_getElem_address (s : State) (i : Fin 10) : s.codeword[i.val] = s.addr[i] := by
  simp [State.codeword, codewordOf]

/-- The last two symbols of the codeword are the command (R23). -/
theorem State.codeword_getElem_command (s : State) (j : Fin 2) : s.codeword[10 + j.val] = s.cmd[j] := by
  simp [State.codeword, codewordOf]

/-- Settles O6: each get renders its field, and the codeword's symbols are the address's and then the command's. -/
theorem getsAnswerStoredFields : Obligations.GetsAnswerStoredFields := by
  unfold Obligations.GetsAnswerStoredFields
  intro s
  refine ⟨⟨_, exec_getAddress s, renderField_length _, fun i => renderField_getElem? _ _ i.isLt⟩,
    ⟨_, exec_getCommand s, renderField_length _, fun j => renderField_getElem? _ _ j.isLt⟩,
    ⟨_, exec_getCodeword s, renderField_length _, fun i => ?_, fun j => ?_⟩⟩
  · rw [renderField_getElem? _ _ (by omega), s.codeword_getElem_address]
  · rw [renderField_getElem? _ _ (by omega), s.codeword_getElem_command]

/-! ## The sets (R122, R124, R126) -/

/-- A set with an invalid payload, whatever the guard is (R183). -/
theorem setField_of_invalid {α : Type} {field : Option α} (write : α → State → State) (s : State)
    (hf : field = none) : setField field write s = .next (s.respond .invalidArgument []) := by
  rw [hf]
  rfl

/-- The three clauses of a set whose field decodes exactly the payloads with `P`. -/
theorem setField_rule {α : Type} {field : Option α} {P : Prop} (hP : (∃ v, field = some v) ↔ P)
    (write : α → State → State) (s : State) :
    (¬P → setField field write s = .next (s.respond .invalidArgument [])) ∧
    (P → s.busy = true → setField field write s = .next (s.respond .busy [])) ∧
    (P → s.busy = false → ∃ v, field = some v ∧ setField field write s = .next ((write v s).respond .ok [])) := by
  refine ⟨fun hnot => ?_, fun hp hb => ?_, fun hp hb => ?_⟩
  · exact setField_of_invalid write s (Option.eq_none_iff_forall_ne_some.2 fun v hv => hnot (hP.1 ⟨v, hv⟩))
  · obtain ⟨v, hv⟩ := hP.2 hp
    exact setField_of_busy write hv hb
  · obtain ⟨v, hv⟩ := hP.2 hp
    exact ⟨v, hv, setField_of_idle write hv hb⟩

/-- Settles O7: the rule of a set, and the symbol that each byte carries. -/
theorem setAddressFollowsRule : Obligations.SetAddressFollowsRule := by
  unfold Obligations.SetAddressFollowsRule
  intro s p
  obtain ⟨hinvalid, hbusy, hok⟩ := setField_rule (exists_decodeField_tri_iff 10 p) State.setAddr s
  refine ⟨hinvalid, hbusy, fun hp hb => ?_⟩
  obtain ⟨v, hv, hx⟩ := hok hp hb
  exact ⟨v, hx, decodeField_tri_carries hv⟩

/-- Settles O8: the rule of a set, over the alphabet without the floating symbol. -/
theorem setCommandFollowsRule : Obligations.SetCommandFollowsRule := by
  unfold Obligations.SetCommandFollowsRule
  intro s p
  obtain ⟨hinvalid, hbusy, hok⟩ := setField_rule (exists_decodeField_bin_iff 2 p) State.setCmd s
  refine ⟨hinvalid, hbusy, fun hp hb => ?_⟩
  obtain ⟨v, hv, hx⟩ := hok hp hb
  refine ⟨v, hx, fun j => ?_⟩
  obtain ⟨b, hb, hbin⟩ := decodeField_getElem hv j
  obtain ⟨hsf, hcarries⟩ := bin_carries hbin
  exact ⟨hsf, b, hb, hcarries⟩

/-- Settles O9: the rule of a set, whose write takes the codeword apart at symbol 10. -/
theorem setCodewordFollowsRule : Obligations.SetCodewordFollowsRule := by
  unfold Obligations.SetCodewordFollowsRule
  intro s p
  obtain ⟨hinvalid, hbusy, hok⟩ := setField_rule (exists_decodeField_tri_iff 12 p) State.setCodeword s
  refine ⟨hinvalid, hbusy, fun hp hb => ?_⟩
  obtain ⟨cw, hcw, hx⟩ := hok hp hb
  refine ⟨addressOf cw, commandOf cw, hx, fun i => ?_, fun j => ?_⟩
  · simpa [addressOf] using decodeField_tri_carries hcw ⟨i.val, by omega⟩
  · simpa [commandOf] using decodeField_tri_carries hcw ⟨10 + j.val, by omega⟩

/-! ## Reading back (R221) -/

/-- The byte that a get answers for a symbol set with this byte: `F` becomes `f` (R76, R78). -/
def readBack (b : Byte) : Byte := if b = 0x46 then 0x66 else b

theorem chr_of_tri {b : Byte} {x : Sym} (h : tri b = some x) : chr x = readBack b := by
  obtain ⟨rfl, rfl⟩ | ⟨rfl, rfl⟩ | ⟨rfl | rfl, rfl⟩ := (tri_eq_some_iff b x).1 h <;> rfl

/-- What a get renders of a decoded payload is the payload, read back. -/
theorem renderField_of_decodeField {len : Nat} {p : List Byte} {v : Vector Sym len}
    (h : decodeField tri len p = some v) : renderField v = p.map readBack := by
  apply List.ext_getElem?
  intro i
  by_cases hi : i < len
  · obtain ⟨b, hb, hx⟩ := decodeField_getElem h ⟨i, hi⟩
    have hchr : chr v[i] = readBack b := chr_of_tri hx
    rw [renderField_getElem? v i hi, List.getElem?_map, hb, hchr]
    rfl
  · have hlen : p.length = len := ((exists_decodeField_tri_iff len p).1 ⟨v, h⟩).1
    rw [List.getElem?_eq_none (by simpa using hi), List.getElem?_eq_none (by simp; omega)]

/-- Settles O11: the set stores the codeword it decodes, and the get renders it. -/
theorem setCodewordReadsBack : Obligations.SetCodewordReadsBack := by
  unfold Obligations.SetCodewordReadsBack
  intro s p hb hp
  obtain ⟨cw, hcw⟩ := (exists_decodeField_tri_iff 12 p).2 hp
  refine ⟨_, _, (exec_setCodeword p s).trans (setField_of_idle State.setCodeword hcw hb), exec_getCodeword _, ?_⟩
  have hstored : ((s.setCodeword cw).respond .ok []).codeword = cw := codewordOf_parts cw
  rw [State.respond_response, hstored, renderField_of_decodeField hcw]
  rfl

/-! ## The triggers and the reset (R140, R141, R210) -/

theorem exec_trigger_zero (s : State) : exec (.trigger 0) s = exec .stop s := rfl

/-- Settles O13: the three values, and the case of R140 that is left for the others. -/
theorem triggerDispatchesOnItsValue : Obligations.TriggerDispatchesOnItsValue := by
  unfold Obligations.TriggerDispatchesOnItsValue
  intro s
  refine ⟨exec_trigger_zero s, rfl, rfl, fun v h0 h1 h2 => ?_⟩
  obtain ⟨h, -⟩ | ⟨h, -⟩ | ⟨h, -⟩ | ⟨-, -, -, hx⟩ := execTrigger_cases v s
  · exact absurd h h0
  · exact absurd h h1
  · exact absurd h h2
  · exact hx

/-- Settles O14: a stop is its five writes and the answer, and TRIGGER 0 is a stop. -/
theorem stopAlwaysSucceeds : Obligations.StopAlwaysSucceeds := by
  unfold Obligations.StopAlwaysSucceeds
  rintro i s (rfl | rfl)
  · exact exec_stop s
  · exact (exec_trigger_zero s).trans (exec_stop s)

theorem exec_reset (s : State) : exec .reset s = .next s.resetBlock.silent := rfl

/-- Settles O5: a reset is its writes, with the next free values. -/
theorem resetFromAnyState : Obligations.ResetFromAnyState := by
  unfold Obligations.ResetFromAnyState
  exact fun s => ⟨Config.freeBits s.freeIdx, Config.freeDur s.freeIdx, s.freeIdx + 1, exec_reset s⟩

/-! ## Repeating a request (R57) -/

/-- A set answers an error and writes nothing, or found the guard free and answers OK. -/
theorem setField_next {α : Type} {field : Option α} {write : α → State → State} {s t : State}
    (h : setField field write s = .next t) :
    (∃ st, t = s.respond st []) ∨ (∃ v, t = (write v s).respond .ok []) := by
  obtain ⟨-, h'⟩ | ⟨v, -, -, h'⟩ | ⟨v, -, -, h'⟩ := setField_cases field write s <;> cases h'.symm.trans h
  · exact .inl ⟨_, rfl⟩
  · exact .inl ⟨_, rfl⟩
  · exact .inr ⟨v, rfl⟩

/-- A set of one payload, done twice: the guard and the payload are the same, and the second write finds its field
written. -/
theorem setField_repeat {α : Type} {field : Option α} {write : α → State → State} {s t : State}
    (hguard : ∀ v, (write v s).busy = s.busy)
    (hwrite : ∀ v, (write v ((write v s).respond .ok [])).respond .ok [] = (write v s).respond .ok [])
    (h : setField field write s = .next t) : setField field write t = .next t := by
  obtain ⟨hf, h'⟩ | ⟨v, hf, hb, h'⟩ | ⟨v, hf, hb, h'⟩ := setField_cases field write s <;> cases h'.symm.trans h
  · exact setField_of_invalid write _ hf
  · exact setField_of_busy write hf hb
  · have hfree : ((write v s).respond .ok []).busy = false := (hguard v).trans hb
    rw [setField_of_idle write hf hfree, hwrite v]

/-- A stop leaves Idle, where another one writes nothing. -/
theorem exec_stop_repeat {s t : State} (h : exec .stop s = .next t) : exec .stop t = .next t := by
  cases (exec_stop s).symm.trans h
  have hidle : (s.endSession.respond .ok []).Idle := s.endSession_idle
  rw [exec_stop, State.endSession_of_idle hidle]
  rfl

/-- After a start that answered a next state the guard is held: it was held before, or the start took it. -/
theorem start_leaves_busy {m : Mode} {s t : State} (h : start m s = .next t) : t.busy = true := by
  obtain ⟨hb, h'⟩ | ⟨-, h'⟩ := start_cases m s <;> cases h'.symm.trans h
  · exact hb
  · rfl

/-- Settles O12: the gets write their response, a set its response or its field, and the second of two equal requests
finds everything it writes written; a start leaves the guard held against the next. -/
theorem repeatedRequests : Obligations.RepeatedRequests := by
  unfold Obligations.RepeatedRequests
  refine ⟨?gets, ?setAddress, ?setCommand, ?setCodeword, ?repeated, ?starts⟩
  case gets => rintro s t (h | h | h) <;> cases h <;> rfl
  case setAddress =>
    intro p s t h
    obtain ⟨st, rfl⟩ | ⟨v, rfl⟩ := setField_next (exec_setAddress p s ▸ h)
    · exact ⟨rfl, fun _ => rfl⟩
    · exact ⟨rfl, fun hne => absurd rfl hne⟩
  case setCommand =>
    intro p s t h
    obtain ⟨st, rfl⟩ | ⟨v, rfl⟩ := setField_next (exec_setCommand p s ▸ h)
    · exact ⟨rfl, fun _ => rfl⟩
    · exact ⟨rfl, fun hne => absurd rfl hne⟩
  case setCodeword =>
    intro p s t h
    obtain ⟨st, rfl⟩ | ⟨v, rfl⟩ := setField_next (exec_setCodeword p s ▸ h)
    · exact ⟨rfl, fun _ => ⟨rfl, rfl⟩⟩
    · exact ⟨rfl, fun hne => absurd rfl hne⟩
  case repeated =>
    rintro i p s t (rfl | rfl | rfl | rfl | rfl | rfl | rfl) h
    · cases h; rfl
    · cases h; rfl
    · cases h; rfl
    · rw [exec_setAddress] at h ⊢
      exact setField_repeat (write := State.setAddr) (fun _ => rfl) (fun _ => rfl) h
    · rw [exec_setCommand] at h ⊢
      exact setField_repeat (write := State.setCmd) (fun _ => rfl) (fun _ => rfl) h
    · rw [exec_setCodeword] at h ⊢
      exact setField_repeat (write := State.setCodeword) (fun _ => rfl) (fun _ => rfl) h
    · exact exec_stop_repeat h
  case starts =>
    intro i j s t hi hj h
    obtain ⟨m, hm⟩ := exists_startsIn (i := i) (.inr (.inr hi))
    obtain ⟨n, hn⟩ := exists_startsIn (i := j) (.inr (.inr hj))
    exact (hn.exec_eq t).trans (start_of_busy n (start_leaves_busy ((hm.exec_eq s).symm.trans h)))

end Sys2Proof.Machine
end

section
/-! The encoder and the time of a pass (40_encoder.md R100 to R107): the bitstring determines the codeword, and every
pass lasts 127 units. -/

namespace Sys2Proof.Machine

/-! ## The row of a symbol (R100) -/

/-- The rows of the table differ. -/
theorem symFlags_injective {x y : Sym} (h : symFlags x = symFlags y) : x = y := by
  revert h
  cases x <;> cases y <;> decide

/-- The four flags from flag `4 i` on are the row of symbol `i` (R101). -/
theorem encodeCodeword_row (cw : Vector Sym 12) (i : Fin 12) :
    ((encodeCodeword cw).toList.drop (4 * i.val)).take 4 = symFlags cw[i] := by
  apply List.ext_getElem?
  intro k
  by_cases hk : k < 4
  · rw [List.getElem?_take_of_lt hk, List.getElem?_drop, Vector.getElem?_toList]
    exact encodeCodeword_symFlag cw i ⟨k, hk⟩
  · rw [List.getElem?_eq_none (by simp; omega), List.getElem?_eq_none (by rw [symFlags_length]; omega)]

/-- Settles O19: equal bitstrings have equal rows, and the row tells the symbol. -/
theorem encoderIsInjective : Obligations.EncoderIsInjective := by
  unfold Obligations.EncoderIsInjective
  intro a b h
  ext i hi
  apply symFlags_injective
  exact (encodeCodeword_row a ⟨i, hi⟩).symm.trans (h ▸ encodeCodeword_row b ⟨i, hi⟩)

/-! ## The units of a pass (R103, R107) -/

/-- The units that a list of flags lasts. -/
def flagUnits (fs : List Flag) : Nat := (fs.map fun f => durUnits (flagDur f)).sum

/-- Two narrow and two wide flags in every row. -/
theorem flagUnits_symFlags (x : Sym) : flagUnits (symFlags x) = 8 := by cases x <;> rfl

theorem flagUnits_append (fs gs : List Flag) : flagUnits (fs ++ gs) = flagUnits fs + flagUnits gs := by
  simp [flagUnits]

theorem flagUnits_flagsOf (syms : List Sym) : flagUnits (flagsOf syms) = 8 * syms.length := by
  induction syms with
  | nil => rfl
  | cons x xs ih =>
    rw [flagsOf_cons, flagUnits_append, flagUnits_symFlags, ih, List.length_cons]
    omega

theorem flagUnits_encodeCodeword (cw : Vector Sym 12) : flagUnits (encodeCodeword cw).toList = 97 := by
  rw [encodeCodeword_toList, flagUnits_append, flagUnits_flagsOf, Vector.length_toList]
  rfl

/-- The durations of a pass are those of its flags and then the sync interval (R104, R106). -/
theorem wave_durations (cw : Vector Sym 12) :
    (wave cw).map Prod.snd = (encodeCodeword cw).toList.map flagDur ++ [syncDur] := by
  apply List.ext_getElem
  · simp [wave]
  · intro n h _
    have hn : n < 50 := by simpa [wave] using h
    obtain hlt | rfl : n < 49 ∨ n = 49 := by omega
    · simp [wave, interval, hlt]
    · simp [wave, interval]

theorem unitsOf_eq (w : List (Level × Dur)) : unitsOf w = ((w.map Prod.snd).map durUnits).sum := by
  rw [List.map_map]
  rfl

/-- At every moment the line is high or low. -/
theorem unitsAt_add_unitsAt (w : List (Level × Dur)) : unitsAt .high w + unitsAt .low w = unitsOf w := by
  induction w with
  | nil => rfl
  | cons x w ih =>
    obtain ⟨l, d⟩ := x
    cases l <;> simp [unitsAt, unitsOf] at ih ⊢ <;> omega

/-- The four intervals from `4 i` on are those of the flags of symbol `i`. -/
theorem unitsOf_symbol (cw : Vector Sym 12) (i : Fin 12) : unitsOf (((wave cw).drop (4 * i.val)).take 4) = 8 := by
  have hdurs : (((wave cw).drop (4 * i.val)).take 4).map Prod.snd = (symFlags cw[i]).map flagDur := by
    rw [List.map_take, List.map_drop, wave_durations, List.drop_append_of_le_length (by simp; omega),
      List.take_append_of_le_length (by simp; omega), ← List.map_drop, ← List.map_take, encodeCodeword_row]
  rw [unitsOf_eq, hdurs, List.map_map]
  exact flagUnits_symFlags cw[i]

theorem unitsOf_wave (cw : Vector Sym 12) : unitsOf (wave cw) = 127 := by
  have hflags : ((encodeCodeword cw).toList.map (durUnits ∘ flagDur)).sum = 97 := flagUnits_encodeCodeword cw
  rw [unitsOf_eq, wave_durations, List.map_append, List.map_map, List.sum_append, hflags]
  rfl

/-- Settles O20: 8 units for each of 12 symbols, 1 for the last flag and 30 for the sync interval. -/
theorem everyPassLasts127Units : Obligations.EveryPassLasts127Units := by
  unfold Obligations.EveryPassLasts127Units
  exact fun cw => ⟨unitsOf_symbol cw, unitsOf_wave cw, (unitsAt_add_unitsAt _).trans (unitsOf_wave cw)⟩

end Sys2Proof.Machine
end

section
/-! What an instruction does to the session and to the model's own fields, and what of a host request the host can see
(10_state.md R35; 43_timer_expiry.md R161, R168; 20_memory.md R59). -/

namespace Sys2Proof.Machine

/-! ## The three ends of an expiry (R161) -/

/-- An expiry goes on within the pass, or after the sync interval completes the session or repeats the pass. -/
theorem State.expire_cases (s : State) :
    (∃ (p : Fin 50) (d : Dur), p.val = s.pos.val + 1 ∧
      s.expire = (((s.driveLine (flipLevel s.line)).silent).setCounts p s.rem).arm d) ∨
    (s.pos = 49 ∧ s.mode = .single ∧ s.expire = s.disarm.silent.completeSession) ∨
    (s.pos = 49 ∧ ∃ n, s.expire = s.silent.repeatPass n) := by
  obtain hpos | hpos | hpos : s.pos.val < 48 ∨ s.pos.val = 48 ∨ s.pos.val = 49 := by omega
  · exact .inl ⟨_, _, rfl, s.expire_inside hpos⟩
  · exact .inl ⟨49, _, by simp [hpos], s.expire_sync hpos⟩
  · have hpos' : s.pos = 49 := Fin.ext hpos
    obtain ⟨hm, -, he⟩ | ⟨-, -, he⟩ | ⟨-, he⟩ := s.expire_last_cases hpos
    · exact .inr (.inl ⟨hpos', hm, he⟩)
    · exact .inr (.inr ⟨hpos', _, he⟩)
    · exact .inr (.inr ⟨hpos', _, he⟩)

/-- An expiry writes none of the model's own fields and answers nothing (R70, R161). -/
theorem State.expire_model (s : State) : SameModel s s.expire ∧ s.expire.response = none := by
  obtain ⟨p, d, -, he⟩ | ⟨-, -, he⟩ | ⟨-, n, he⟩ := s.expire_cases <;> rw [he] <;> exact ⟨⟨rfl, rfl, rfl⟩, rfl⟩

/-- Only the completion writes the guard, and it leaves Idle (R162). -/
theorem State.expire_busy {s : State} (h : s.expire.busy ≠ s.busy) : s.pos = 49 ∧ s.mode = .single ∧ s.expire.Idle := by
  obtain ⟨p, d, -, he⟩ | ⟨hpos, hm, he⟩ | ⟨-, n, he⟩ := s.expire_cases <;> rw [he] at h ⊢
  · exact absurd rfl h
  · exact ⟨hpos, hm, rfl, rfl, rfl, rfl, rfl⟩
  · exact absurd rfl h

/-- The position goes to the next one, and from the last to the first (R168). -/
theorem State.expire_pos (s : State) :
    (s.pos = 49 → s.expire.pos = 0) ∧ (s.pos ≠ 49 → s.expire.pos.val = s.pos.val + 1) := by
  obtain ⟨p, d, hp, he⟩ | ⟨hpos, -, he⟩ | ⟨hpos, n, he⟩ := s.expire_cases <;> rw [he]
  · exact ⟨fun hpos => by simp [hpos] at hp; omega, fun _ => hp⟩
  · exact ⟨fun _ => rfl, absurd hpos⟩
  · exact ⟨fun _ => rfl, absurd hpos⟩

/-- Settles O26: the fields of the waveform and of the model are kept, and only the completion writes the guard. -/
theorem expiryFrame : Obligations.ExpiryFrame := by
  unfold Obligations.ExpiryFrame
  intro s t h
  cases eq_expire_of_exec h
  obtain ⟨hcodeword, hbits, hmode⟩ := s.expire_sameWaveform
  obtain ⟨hmodel, hresponse⟩ := s.expire_model
  exact ⟨hcodeword, hbits, hmode, hmodel, hresponse, State.expire_busy⟩

/-! ## What each instruction does to the session -/

/-- What an instruction `i` that answers a next state has done to the session. -/
inductive SessionEffect (i : Instr) (s : State) : State → Prop where
  /-- a property request, or an error: the session and the model's own fields are kept (R127, R181) -/
  | keep {t : State} (hs : SameSession s t) (hm : SameModel s t) : SessionEffect i s t
  /-- an accepted start (R142) -/
  | begin (m : Mode) (hi : i = .trigger 1 ∨ i = .trigger 2 ∨ i = .send ∨ i = .sendCont) (hb : s.busy = false) :
      SessionEffect i s ((s.beginSession m).respond .ok [])
  /-- a stop (R141) -/
  | stop (hi : i = .trigger 0 ∨ i = .stop) : SessionEffect i s (s.endSession.respond .ok [])
  /-- an expiry (R161) -/
  | expire (hi : i = .timerExpire) (ha : s.tmrArmed = true) : SessionEffect i s s.expire
  /-- a reset (R210) -/
  | reset (hi : i = .reset) : SessionEffect i s s.resetBlock.silent

/-- What keeps the session in the property family's frame. -/
theorem SessionEffect.of_keepsSession {i : Instr} {s t : State} (h : KeepsSession s t) : SessionEffect i s t := by
  obtain ⟨hs, hm, -⟩ := h
  exact .keep hs hm

/-- A start answers `BUSY` or begins a session. -/
theorem SessionEffect.of_start {i : Instr} {m : Mode} {s t : State}
    (hi : i = .trigger 1 ∨ i = .trigger 2 ∨ i = .send ∨ i = .sendCont) (h : start m s = .next t) :
    SessionEffect i s t := by
  obtain ⟨-, h'⟩ | ⟨hb, h'⟩ := start_cases m s <;> cases h'.symm.trans h
  · exact .of_keepsSession (s.respond_keepsSession _ _)
  · exact .begin m hi hb

/-- A trigger stops, starts, or answers `INVALID_ARGUMENT` (R140). -/
theorem SessionEffect.of_trigger {v : Int} {s t : State} (h : execTrigger v s = .next t) :
    SessionEffect (.trigger v) s t := by
  obtain ⟨rfl, h'⟩ | ⟨rfl, h'⟩ | ⟨rfl, h'⟩ | ⟨-, -, -, h'⟩ := execTrigger_cases v s <;> rw [h'] at h
  · cases h
    exact .stop (.inl rfl)
  · exact .of_start (by simp) h
  · exact .of_start (by simp) h
  · cases h
    exact .of_keepsSession (s.respond_keepsSession _ _)

/-- Every instruction that answers a next state has one of the five effects on the session. -/
theorem exec_sessionEffect {i : Instr} {s t : State} (h : exec i s = .next t) : SessionEffect i s t := by
  cases i with
  | getAddress | getCommand | getCodeword => cases h; exact .of_keepsSession (s.respond_keepsSession _ _)
  | setAddress p => exact .of_keepsSession (setField_keepsSession (fun v => s.setAddr_setCmd_frame v s.cmd) h)
  | setCommand p => exact .of_keepsSession (setField_keepsSession (fun v => s.setAddr_setCmd_frame s.addr v) h)
  | setCodeword p =>
    exact .of_keepsSession (setField_keepsSession (write := State.setCodeword)
      (fun v => s.setAddr_setCmd_frame (addressOf v) (commandOf v)) h)
  | trigger v => exact .of_trigger h
  | stop => cases h; exact .stop (.inr rfl)
  | send | sendCont => exact .of_start (by simp) h
  | timerExpire =>
    cases eq_expire_of_exec h
    exact .expire rfl ((exec_timerExpire_iff_armed s).1 ⟨_, h⟩)
  | reset => cases h; exact .reset rfl
  | reserved06 | reserved0A0B | reserved0C0F | reserved101F | reserved203F | reserved407F | reserved80FF =>
    exact (refuseReserved_ne_next _ s t h).elim

/-! ## POS (R168) -/

/-- Outside the timer's step POS is kept, or set to 0 by a start, a stop or a reset. -/
theorem exec_pos {i : Instr} {s t : State} (hi : i ≠ .timerExpire) (h : exec i s = .next t) :
    t.pos = s.pos ∨ t.pos = 0 := by
  cases exec_sessionEffect h with
  | keep hs _ =>
    obtain ⟨-, -, -, -, hpos, -⟩ := hs
    exact .inl hpos
  | begin | stop | reset => exact .inr rfl
  | expire hi' _ => exact absurd hi' hi

/-- A fetched instruction runs in the state, with the input taken off if there was one. -/
theorem fetch_run_state {s u : State} {i : Instr} (h : fetch s = .run i u) : u = { s with inputs := s.inputs.tail } := by
  obtain ⟨hin, -, -, rfl⟩ | ⟨_, _, _, -, -, -, rfl⟩ := fetch_run_cases h
  · cases u
    cases hin
    rfl
  · rfl

/-- Settles O27: an expiry moves POS in order, every other instruction keeps it or sets it to 0, and a step is an
instruction or a wait. -/
theorem posMovesInOrder : Obligations.PosMovesInOrder := by
  unfold Obligations.PosMovesInOrder
  refine ⟨?step, fun i s t => exec_pos, ?expiry⟩
  case expiry =>
    intro s t h
    cases eq_expire_of_exec h
    exact s.expire_pos
  case step =>
    intro s t h
    obtain ⟨-, rfl⟩ | ⟨i, u, hf, hx⟩ := step_next_cases h
    · exact .inl rfl
    have hu : u.pos = s.pos := by rw [fetch_run_state hf]
    rw [← hu]
    by_cases hi : i = .timerExpire
    · subst hi
      cases eq_expire_of_exec hx
      obtain ⟨hlast, hnext⟩ := u.expire_pos
      by_cases hpos : u.pos = 49
      · exact .inr (.inl (hlast hpos))
      · exact .inr (.inr (hnext hpos))
    · exact (exec_pos hi hx).imp_right .inl

/-! ## The guard, the timer and the line (R28, R32, R59) -/

/-- Settles O28: of the five effects on the session, each clause leaves those that write its register in its way. -/
theorem whoChangesGuardTimerAndLine : Obligations.WhoChangesGuardTimerAndLine := by
  unfold Obligations.WhoChangesGuardTimerAndLine
  intro i s t h
  cases exec_sessionEffect h with
  | keep hs _ =>
    obtain ⟨-, hbusy, -, -, -, hline, harmed, -⟩ := hs
    rw [hbusy, harmed, hline]
    simp_all
  | begin m hi hb =>
    refine ⟨fun _ _ => hi, fun _ _ => hi, fun hs => ?_, fun _ => ?_⟩
    · cases hb.symm.trans hs
    · obtain hi | hi | hi | hi := hi <;> simp [hi]
  | stop hi =>
    refine ⟨fun _ ht => ?_, fun _ ht => ?_, fun _ _ => ?_, fun _ => ?_⟩
    · cases ht
    · cases ht
    · obtain hi | hi := hi <;> simp [hi]
    · obtain hi | hi := hi <;> simp [hi]
  | expire hi ha =>
    refine ⟨fun hs ht => ?_, fun hs => ?_, fun hs ht => ?_, fun _ => by simp [hi]⟩
    · obtain ⟨-, -, hidle, -⟩ := State.expire_busy (s := s) (by simp [hs, ht])
      cases hidle.symm.trans ht
    · cases ha.symm.trans hs
    · obtain ⟨hpos, hm, -⟩ := State.expire_busy (s := s) (by simp [hs, ht])
      exact .inr (.inr (.inr ⟨hi, hpos, hm⟩))
  | reset hi =>
    refine ⟨fun _ ht => ?_, fun _ ht => ?_, fun _ _ => by simp [hi], fun _ => by simp [hi]⟩
    · cases ht
    · cases ht

/-! ## The model's own fields (log 1, log 3, log 4) -/

theorem State.beginSession_model (m : Mode) (s : State) : SameModel s (s.beginSession m) := by
  rw [s.beginSession_eq]
  exact ⟨rfl, rfl, rfl⟩

/-- No instruction writes the parameters or the inputs, and only a reset advances the free index. -/
theorem exec_model {i : Instr} {s t : State} (h : exec i s = .next t) :
    t.params = s.params ∧ t.inputs = s.inputs ∧ (t.freeIdx = s.freeIdx ∨ t.freeIdx = s.freeIdx + 1 ∧ i = .reset) := by
  cases exec_sessionEffect h with
  | keep _ hm =>
    obtain ⟨hparams, hinputs, hfree⟩ := hm
    exact ⟨hparams, hinputs, .inl hfree⟩
  | begin m =>
    obtain ⟨hparams, hinputs, hfree⟩ := s.beginSession_model m
    exact ⟨hparams, hinputs, .inl hfree⟩
  | stop => exact ⟨rfl, rfl, .inl rfl⟩
  | expire =>
    obtain ⟨⟨hparams, hinputs, hfree⟩, -⟩ := s.expire_model
    exact ⟨hparams, hinputs, .inl hfree⟩
  | reset hi => exact ⟨rfl, rfl, .inr ⟨rfl, hi⟩⟩

/-- The block waits only when nothing is queued (log 1). -/
theorem inputs_of_fetch_wait {s : State} (h : fetch s = .wait) : s.inputs = [] := by
  unfold fetch fetchTeardown fetchIssue at h
  split at h
  · assumption
  · split at h <;> cases h
  · split at h
    · cases h
    · split at h <;> cases h

/-- A fetched reset was issued by the platform, with its header (R72). -/
theorem inputs_of_fetch_reset {s u : State} (h : fetch s = .run .reset u) :
    ∃ r rest, s.inputs = .issue .platform r :: rest ∧ r.op = 0x09 := by
  obtain ⟨-, -, hi, -⟩ | ⟨a, r, rest, hin, hd, rfl, -⟩ := fetch_run_cases h
  · cases hi
  · obtain ⟨-, hop, -⟩ := decode_ok_header hd
    exact ⟨r, rest, hin, hop.symm⟩

/-- Settles O35: a step waits with nothing queued, or runs an instruction with the input taken off. -/
theorem stepTakesOneInput : Obligations.StepTakesOneInput := by
  unfold Obligations.StepTakesOneInput
  intro s t h
  obtain ⟨hf, rfl⟩ | ⟨i, u, hf, hx⟩ := step_next_cases h
  · simp [inputs_of_fetch_wait hf]
  · obtain ⟨hparams, hinputs, hfree⟩ := exec_model hx
    have hu := fetch_run_state hf
    refine ⟨by rw [hinputs, hu], by rw [hparams, hu], ?_⟩
    rw [show s.freeIdx = u.freeIdx by rw [hu]]
    obtain hfree | ⟨hfree, rfl⟩ := hfree
    · exact .inl hfree
    · exact .inr ⟨hfree, inputs_of_fetch_reset hf⟩

/-! ## One response to a host request (R70) -/

/-- The outcome is a next state with a response without data. -/
def AnswersNoData (o : Host.Outcome State Fault Refusal) : Prop :=
  ∃ (t : State) (st : Status), o = .next t ∧ t.response = some ⟨st, []⟩

theorem setField_answersNoData {α : Type} (field : Option α) (write : α → State → State) (s : State) :
    AnswersNoData (setField field write s) := by
  obtain ⟨-, h⟩ | ⟨v, -, -, h⟩ | ⟨v, -, -, h⟩ := setField_cases field write s <;> exact ⟨_, _, h, rfl⟩

theorem start_answersNoData (m : Mode) (s : State) : AnswersNoData (start m s) := by
  obtain ⟨-, h⟩ | ⟨-, h⟩ := start_cases m s <;> exact ⟨_, _, h, rfl⟩

theorem execTrigger_answersNoData (v : Int) (s : State) : AnswersNoData (execTrigger v s) := by
  obtain ⟨-, h⟩ | ⟨-, h⟩ | ⟨-, h⟩ | ⟨-, -, -, h⟩ := execTrigger_cases v s <;> rw [h]
  · exact ⟨_, _, rfl, rfl⟩
  · exact start_answersNoData .single s
  · exact start_answersNoData .cont s
  · exact ⟨_, _, rfl, rfl⟩

/-- The three gets. -/
def IsGet (i : Instr) : Prop := i = .getAddress ∨ i = .getCommand ∨ i = .getCodeword

/-- A request without data that is no get has the one response that the statement asks for. -/
theorem AnswersNoData.exists_response {i : Instr} {s : State} (h : AnswersNoData (exec i s)) (hi : ¬IsGet i) :
    ∃ (t : State) (r : Response), exec i s = .next t ∧ t.response = some r ∧ (r.data ≠ [] ↔ IsGet i) := by
  obtain ⟨t, st, hx, hr⟩ := h
  exact ⟨t, _, hx, hr, by simp [hi]⟩

/-- A rendered field is data. -/
theorem renderField_ne_nil {len : Nat} (v : Vector Sym len) (h : 0 < len) : renderField v ≠ [] := by
  rw [← List.length_pos_iff, renderField_length]
  exact h

/-- Settles O32: the gets answer their rendered field, the other host requests no data, and the two events nothing. -/
theorem hostRequestsAnswerOnce : Obligations.HostRequestsAnswerOnce := by
  unfold Obligations.HostRequestsAnswerOnce
  refine ⟨?host, ?events⟩
  case host =>
    intro i s hi hk
    have hreserved {j : Instr} (h : decodeHeader (encode i).op = .reserved j) : False :=
      hk ((decodeHeader_reserved_iff _).2 ⟨j, h⟩)
    cases i with
    | getAddress => exact ⟨_, _, exec_getAddress s, rfl, by simp [renderField_ne_nil]⟩
    | getCommand => exact ⟨_, _, exec_getCommand s, rfl, by simp [renderField_ne_nil]⟩
    | getCodeword => exact ⟨_, _, exec_getCodeword s, rfl, by simp [renderField_ne_nil]⟩
    | setAddress | setCommand | setCodeword =>
      exact AnswersNoData.exists_response (setField_answersNoData _ _ s) (by simp [IsGet])
    | trigger v => exact AnswersNoData.exists_response (execTrigger_answersNoData v s) (by simp [IsGet])
    | stop => exact AnswersNoData.exists_response ⟨_, _, exec_stop s, rfl⟩ (by simp [IsGet])
    | send | sendCont => exact AnswersNoData.exists_response (start_answersNoData _ s) (by simp [IsGet])
    | timerExpire | reset => cases hi
    | reserved06 => exact (hreserved decodeHeader_06).elim
    | reserved0A0B x => exact (hreserved (decodeHeader_0A0B x)).elim
    | reserved0C0F x => exact (hreserved (decodeHeader_0C0F x)).elim
    | reserved101F x => exact (hreserved (decodeHeader_101F x)).elim
    | reserved203F x => exact (hreserved (decodeHeader_203F x)).elim
    | reserved407F x => exact (hreserved (decodeHeader_407F x)).elim
    | reserved80FF x => exact (hreserved (decodeHeader_80FF x)).elim
  case events =>
    intro i s t hi h
    cases i with
    | timerExpire =>
      cases eq_expire_of_exec h
      obtain ⟨-, hnone⟩ := s.expire_model
      exact hnone
    | reset => cases h; rfl
    | _ => cases hi

/-! ## What the host can see (R35) -/

/-- Two runs show the host the same: the response, and the visible state. -/
def LooksSame (t t' : State) : Prop := t.response = t'.response ∧ SameVisible t t'

/-- Two outcomes that both have a next state show the host the same. -/
def OutcomesLookSame (o o' : Host.Outcome State Fault Refusal) : Prop :=
  ∀ t t', o = .next t → o' = .next t' → LooksSame t t'

theorem OutcomesLookSame.of_next {t t' : State} (h : LooksSame t t') : OutcomesLookSame (.next t) (.next t') := by
  rintro _ _ ⟨⟩ ⟨⟩
  exact h

/-- The same answer to states that look alike. -/
theorem SameVisible.respond {s s' : State} (h : SameVisible s s') (st : Status) (d : List Byte) :
    OutcomesLookSame (.next (s.respond st d)) (.next (s'.respond st d)) :=
  .of_next ⟨rfl, h⟩

/-- A set looks at the guard, and writes a visible field. -/
theorem setField_looksSame {α : Type} (field : Option α) {write : α → State → State} {s s' : State}
    (h : SameVisible s s') (hw : ∀ v, SameVisible (write v s) (write v s')) :
    OutcomesLookSame (setField field write s) (setField field write s') := by
  have ⟨_, hbusy, _⟩ := h
  obtain ⟨hf, hx⟩ | ⟨v, hf, hb, hx⟩ | ⟨v, hf, hb, hx⟩ := setField_cases field write s <;> rw [hx]
  · rw [setField_of_invalid write s' hf]
    exact SameVisible.respond h _ _
  · rw [setField_of_busy write hf (hbusy.trans hb)]
    exact SameVisible.respond h _ _
  · rw [setField_of_idle write hf (hbusy.trans hb)]
    exact SameVisible.respond (hw v) _ _

/-- A start looks at the guard, and leaves the line high and the guard held. -/
theorem start_looksSame (m : Mode) {s s' : State} (h : SameVisible s s') :
    OutcomesLookSame (start m s) (start m s') := by
  have ⟨hcodeword, hbusy, _⟩ := h
  obtain ⟨hb, hx⟩ | ⟨hb, hx⟩ := start_cases m s <;> rw [hx]
  · rw [start_of_busy m (hbusy.trans hb)]
    exact SameVisible.respond h _ _
  · rw [start_of_idle m (hbusy.trans hb), s.beginSession_eq, s'.beginSession_eq]
    exact .of_next ⟨rfl, hcodeword, rfl, rfl⟩

/-- A stop leaves the line low and the guard free. -/
theorem stopSession_looksSame {s s' : State} (h : SameVisible s s') :
    OutcomesLookSame (stopSession s) (stopSession s') := by
  obtain ⟨hcodeword, -, -⟩ := h
  exact .of_next ⟨rfl, hcodeword, rfl, rfl⟩

theorem execTrigger_looksSame (v : Int) {s s' : State} (h : SameVisible s s') :
    OutcomesLookSame (execTrigger v s) (execTrigger v s') := by
  unfold execTrigger
  split_ifs
  · exact stopSession_looksSame h
  · exact start_looksSame .single h
  · exact start_looksSame .cont h
  · exact SameVisible.respond h _ _

/-- A get renders a visible field. -/
theorem getField_looksSame {len : Nat} {v v' : Vector Sym len} {s s' : State} (h : SameVisible s s') (hv : v' = v) :
    OutcomesLookSame (getField v s) (getField v' s') := by
  rw [hv]
  exact SameVisible.respond h _ _

/-- Settles O33: no host request looks at a hidden register, except to overwrite it. -/
theorem hiddenStateStaysHidden : Obligations.HiddenStateStaysHidden := by
  unfold Obligations.HiddenStateStaysHidden
  intro i s s' t t' hi hvis
  have ⟨⟨haddr, hcmd⟩, hbusy, hline⟩ := hvis
  suffices h : OutcomesLookSame (exec i s) (exec i s') from h t t'
  cases i with
  | getAddress => exact getField_looksSame hvis haddr
  | getCommand => exact getField_looksSame hvis hcmd
  | getCodeword => exact getField_looksSame hvis (by rw [State.codeword, haddr, hcmd]; rfl)
  | setAddress p => exact setField_looksSame _ hvis fun v => ⟨⟨rfl, hcmd⟩, hbusy, hline⟩
  | setCommand p => exact setField_looksSame _ hvis fun v => ⟨⟨haddr, rfl⟩, hbusy, hline⟩
  | setCodeword p => exact setField_looksSame _ hvis fun v => ⟨⟨rfl, rfl⟩, hbusy, hline⟩
  | trigger v => exact execTrigger_looksSame v hvis
  | stop => exact stopSession_looksSame hvis
  | send | sendCont => exact start_looksSame _ hvis
  | timerExpire | reset => cases hi
  | reserved06 | reserved0A0B | reserved0C0F | reserved101F | reserved203F | reserved407F | reserved80FF =>
    exact fun t _ h _ => (refuseReserved_ne_next _ s t h).elim

end Sys2Proof.Machine
end

section
/-! Passes, single-frame sessions and races (40_encoder.md R106; 43_timer_expiry.md R166, R167; 60_exceptions.md R187,
R188). -/

namespace Sys2Proof.Machine

/-! ## Within a pass (R161, R166) -/

/-- Before the last position an expiry goes to the next one, and the session goes on. -/
theorem State.expire_within {s : State} (h : s.pos ≠ 49) :
    s.expire.pos.val = s.pos.val + 1 ∧ s.expire.rem = s.rem ∧ s.expire.busy = s.busy := by
  obtain ⟨p, d, hp, he⟩ | ⟨hpos, -⟩ | ⟨hpos, -⟩ := s.expire_cases
  · rw [he]
    exact ⟨hp, rfl, rfl⟩
  · exact absurd hpos h
  · exact absurd hpos h

/-- What is observed of the line in the interval of a position (D33). -/
def observation (bits : Vector Flag 49) (p : Fin 50) : Level × Option Dur := (levelAt p.val, some (interval bits p))

/-- With the invariants a session shows the interval of its position (I6, I7). -/
theorem State.Inv.observe_eq {s : State} (h : s.Inv) (hb : s.busy = true) : s.observe = observation s.bits s.pos := by
  have ha : s.tmrArmed = true := h.guardIsTimer.symm.trans hb
  rw [State.observe, if_pos ha, h.levelOfPos hb, h.armedInterval hb, observation]

/-- The positions from one on, one by one. -/
theorem finRange_drop (p : Fin 50) : (List.finRange 50).drop p.val = p :: (List.finRange 50).drop (p.val + 1) := by
  rw [List.drop_eq_getElem_cons (by simp), List.getElem_finRange]
  rfl

theorem lineTrace_succ_of_armed (k : Nat) {s : State} (ha : s.tmrArmed = true) :
    lineTrace (k + 1) s = s.observe :: lineTrace k s.expire := by
  rw [lineTrace, exec_timerExpire_of_armed ha]

/-- The rest of a pass shows the intervals from the position on. -/
theorem State.Inv.lineTrace_rest {s : State} (h : s.Inv) (hb : s.busy = true) (k : Nat) (hk : s.pos.val + k = 49) :
    lineTrace (k + 1) s = ((List.finRange 50).drop s.pos.val).map (observation s.bits) := by
  induction k generalizing s with
  | zero =>
    have ha : s.tmrArmed = true := h.guardIsTimer.symm.trans hb
    rw [lineTrace_succ_of_armed 0 ha, h.observe_eq hb, finRange_drop, List.drop_eq_nil_of_le (by simp; omega)]
    rfl
  | succ k ih =>
    have ha : s.tmrArmed = true := h.guardIsTimer.symm.trans hb
    obtain ⟨hpos, -, hbusy⟩ := s.expire_within (fun h49 => by simp [h49] at hk)
    obtain ⟨-, hbits, -⟩ := s.expire_sameWaveform
    have hrest := ih (h.expire hb) (hbusy.trans hb) (by omega)
    rw [lineTrace_succ_of_armed (k + 1) ha, h.observe_eq hb, hrest, hpos, hbits, finRange_drop s.pos, List.map_cons]

/-- The levels of a pass alternate. -/
theorem levelChanges_of_pass : levelChanges ((List.finRange 50).map fun p => levelAt p.val) = 49 := by decide

/-- Settles O36: the trace shows the interval of each position, and the bitstring is that of the stored codeword. -/
theorem passFollowsWave : Obligations.PassFollowsWave := by
  unfold Obligations.PassFollowsWave
  intro s hinv hb hpos
  have htrace : lineTrace 50 s = (List.finRange 50).map (observation s.bits) := by
    have hrest := hinv.lineTrace_rest hb 49 (by rw [hpos]; rfl)
    rwa [hpos] at hrest
  rw [htrace, hinv.bitsCurrent hb, wave, List.map_map, List.map_map]
  exact ⟨rfl, levelChanges_of_pass⟩

/-! ## A single-frame session (R167) -/

/-- A single-frame session is in flight. -/
structure State.RunsSingle (s : State) : Prop where
  inv : s.Inv
  busy : s.busy = true
  mode : s.mode = .single

theorem State.RunsSingle.armed {s : State} (h : s.RunsSingle) : s.tmrArmed = true :=
  h.inv.guardIsTimer.symm.trans h.busy

/-- The expiries that a single-frame session has left: 50 for each pass after this one, and one for each position from
this one on. -/
def State.expiriesLeft (s : State) : Nat := 50 * (s.rem - 1) + (50 - s.pos.val)

theorem State.expiriesLeft_pos (s : State) : 0 < s.expiriesLeft := by
  unfold State.expiriesLeft
  omega

/-- An expiry is the last one and completes the session, or leaves one fewer. -/
theorem State.RunsSingle.expire {s : State} (h : s.RunsSingle) :
    (s.expiriesLeft = 1 ∧ s.expire.Idle) ∨ (s.expire.RunsSingle ∧ s.expiriesLeft = s.expire.expiriesLeft + 1) := by
  obtain ⟨hinv, hb, hm⟩ := h
  obtain ⟨hmin, -⟩ := hinv.singleRem hb hm
  obtain ⟨-, -, hmode⟩ := s.expire_sameWaveform
  have hruns (hb' : s.expire.busy = true) : s.expire.RunsSingle := ⟨hinv.expire hb, hb', hmode.trans hm⟩
  unfold State.expiriesLeft
  by_cases hpos : s.pos = 49
  · have hval : s.pos.val = 49 := congrArg Fin.val hpos
    obtain ⟨-, hr, he⟩ | ⟨-, hr, he⟩ | ⟨hc, -⟩ := s.expire_last_cases hval
    · rw [he]
      exact .inl ⟨by omega, rfl, rfl, rfl, rfl, rfl⟩
    · refine .inr ⟨hruns (by rw [he]; exact hb), ?_⟩
      have hrem : s.expire.rem = s.rem - 1 := by rw [he]; rfl
      have hzero : s.expire.pos.val = 0 := by rw [he]; rfl
      omega
    · cases hm.symm.trans hc
  · obtain ⟨hnext, hrem, hbusy⟩ := State.expire_within hpos
    exact .inr ⟨hruns (hbusy.trans hb), by omega⟩

/-- Fewer expiries than are left keep the session, and all of them end it; the waveform is kept throughout. -/
theorem State.RunsSingle.exists_expiries {s : State} (h : s.RunsSingle) (k : Nat) (hk : k ≤ s.expiriesLeft) :
    ∃ u, expiries k s = .next u ∧ SameWaveform s u ∧ (k < s.expiriesLeft → u.busy = true) ∧
      (k = s.expiriesLeft → u.Idle) := by
  induction k generalizing s with
  | zero => exact ⟨s, rfl, .refl s, fun _ => h.busy, fun h0 => absurd h0 s.expiriesLeft_pos.ne⟩
  | succ k ih =>
    rw [expiries_succ_of_armed k h.armed]
    obtain ⟨hlast, hidle⟩ | ⟨hruns, hleft⟩ := h.expire
    · obtain rfl : k = 0 := by omega
      exact ⟨s.expire, rfl, s.expire_sameWaveform, by omega, fun _ => hidle⟩
    · obtain ⟨u, hrun, hsame, hbusy, hidle⟩ := ih hruns (by omega)
      exact ⟨u, hrun, s.expire_sameWaveform.trans hsame, fun hlt => hbusy (by omega), fun heq => hidle (by omega)⟩

/-- A start of a single-frame session has 50 expiries a pass before it. -/
theorem State.Inv.begin_single {s : State} (h : s.Inv) :
    ((s.beginSession .single).respond .ok []).RunsSingle ∧
    ((s.beginSession .single).respond .ok []).expiriesLeft = 50 * s.params.nSingle := by
  refine ⟨⟨(h.beginSession .single).respond .ok [], rfl, rfl⟩, ?_⟩
  have hmin : 1 ≤ s.params.nSingle := h.legal.1
  have hleft : ((s.beginSession .single).respond .ok []).expiriesLeft = 50 * (s.params.nSingle - 1) + 50 := by
    rw [s.beginSession_eq]
    rfl
  omega

/-- Settles O37: a SEND begins a session with 50 expiries for each of its N_SINGLE passes. -/
theorem singleFrameSessionEnds : Obligations.SingleFrameSessionEnds := by
  unfold Obligations.SingleFrameSessionEnds
  intro s hinv hb
  obtain ⟨hruns, hleft⟩ := hinv.begin_single
  refine ⟨_, (exec_send s).trans (start_of_idle .single hb), fun k hk => ?_, ?_⟩
  · obtain ⟨u, hrun, -, hbusy, -⟩ := hruns.exists_expiries k (by omega)
    exact ⟨u, hrun, hbusy (by omega)⟩
  · obtain ⟨u, hrun, ⟨⟨haddr, hcmd⟩, hbits, hmode⟩, -, hidle⟩ := hruns.exists_expiries (50 * s.params.nSingle) hleft.ge
    rw [s.beginSession_eq] at haddr hcmd hbits hmode
    exact ⟨u, hrun, hidle hleft.symm, ⟨haddr, hcmd⟩, hbits, hmode⟩

/-! ## Races (R187, R188) -/

/-- A stop writes what two states of one session differ in, but for TMR_DUR. -/
theorem State.endSession_converges {s a : State} (hw : SameWaveform s a) (hm : SameModel s a) :
    { a.endSession.respond .ok [] with tmrDur := s.tmrDur } = s.endSession.respond .ok [] := by
  obtain ⟨⟨haddr, hcmd⟩, hbits, hmode⟩ := hw
  obtain ⟨hparams, hinputs, hfree⟩ := hm
  cases s
  cases a
  simp_all [State.endSession, State.respond, State.disarm, State.driveLine, State.releaseGuard, State.setCounts]

/-- Settles O39: an expiry keeps the waveform, and a stop after it overwrites the rest; the last expiry arms no
interval. -/
theorem stopAndExpiryConverge : Obligations.StopAndExpiryConverge := by
  unfold Obligations.StopAndExpiryConverge
  intro s ha
  obtain ⟨hmodel, -⟩ := s.expire_model
  have hconv := State.endSession_converges s.expire_sameWaveform hmodel
  refine ⟨s.expire, _, _, exec_timerExpire_of_armed ha, exec_stop _, exec_stop s, s.endSession_idle, rfl, hconv, ?_⟩
  intro hpos hm hr
  have he : s.expire = s.disarm.silent.completeSession := State.expire_completes (congrArg Fin.val hpos) hm (by rw [hr])
  have hdur : s.expire.tmrDur = s.tmrDur := by rw [he]; rfl
  rw [← hconv, ← hdur]
  rfl

/-- The outcome is the answer of a request that needs the guard and has nothing else to check. -/
def AnswersByGuard (s : State) (o : Host.Outcome State Fault Refusal) : Prop :=
  ∃ t, o = .next t ∧ t.response = some ⟨if s.busy then .busy else .ok, []⟩

theorem setField_answersByGuard {α : Type} {field : Option α} (hf : ∃ v, field = some v) (write : α → State → State)
    (s : State) : AnswersByGuard s (setField field write s) := by
  obtain ⟨v, hv⟩ := hf
  cases hb : s.busy with
  | true => exact ⟨_, setField_of_busy write hv hb, by rw [hb]; rfl⟩
  | false => exact ⟨_, setField_of_idle write hv hb, by rw [hb]; rfl⟩

theorem start_answersByGuard (m : Mode) (s : State) : AnswersByGuard s (start m s) := by
  cases hb : s.busy with
  | true => exact ⟨_, start_of_busy m hb, by rw [hb]; rfl⟩
  | false => exact ⟨_, start_of_idle m hb, by rw [hb]; rfl⟩

/-- A request that needs the guard is answered by it alone. -/
theorem exec_answersByGuard {i : Instr} (h : NeedsGuard i) (s : State) : AnswersByGuard s (exec i s) := by
  cases i with
  | setAddress p => exact setField_answersByGuard ((exists_decodeField_tri_iff 10 p).2 h) State.setAddr s
  | setCommand p => exact setField_answersByGuard ((exists_decodeField_bin_iff 2 p).2 h) State.setCmd s
  | setCodeword p => exact setField_answersByGuard ((exists_decodeField_tri_iff 12 p).2 h) State.setCodeword s
  | trigger v =>
    obtain rfl | rfl := h
    · exact start_answersByGuard .single s
    · exact start_answersByGuard .cont s
  | send => exact start_answersByGuard .single s
  | sendCont => exact start_answersByGuard .cont s
  | _ => exact h.elim

/-- Settles O40: each of the requests needs the guard, which the last expiry frees. -/
theorem startRaceDoesNotConverge : Obligations.StartRaceDoesNotConverge := by
  unfold Obligations.StartRaceDoesNotConverge
  intro s i p hb ha hpos hm hr hi
  have hneed : NeedsGuard i := by
    obtain rfl | rfl | ⟨rfl, hp⟩ | ⟨rfl, hp⟩ | ⟨rfl, hp⟩ := hi
    · trivial
    · trivial
    · exact hp
    · exact hp
    · exact hp
  have he : s.expire = s.disarm.silent.completeSession := State.expire_completes (congrArg Fin.val hpos) hm (by rw [hr])
  have hfree : s.expire.busy = false := by rw [he]; rfl
  obtain ⟨b, hx, hok⟩ := exec_answersByGuard hneed s.expire
  obtain ⟨c, hx', hbusy⟩ := exec_answersByGuard hneed s
  rw [hfree] at hok
  rw [hb] at hbusy
  exact ⟨⟨_, b, exec_timerExpire_of_armed ha, hx, hok⟩, ⟨c, hx', hbusy⟩⟩

end Sys2Proof.Machine
end

section
/-! The packed views (10_state.md R38) and the text form of a request (30_encoding.md R82). -/

namespace Sys2Proof.Machine

/-! ## The packed layout (R38) -/

/-- The packed symbols are below `4 ^ n`, so the packed width loses none of them. -/
theorem packSyms_lt (xs : List Sym) : packSyms xs < 4 ^ xs.length := by
  induction xs with
  | nil => simp [packSyms]
  | cons x xs ih =>
    have hcode : (symCode x).toNat < 4 := (symCode x).isLt
    rw [packSyms, List.length_cons, pow_succ]
    omega

/-- Symbol `i` is digit `i` of the packed symbols, in base 4. -/
theorem packSyms_digit (xs : List Sym) (i : Nat) (hi : i < xs.length) :
    packSyms xs / 4 ^ i % 4 = (symCode xs[i]).toNat := by
  induction xs generalizing i with
  | nil => simp at hi
  | cons x xs ih =>
    have hcode : (symCode x).toNat < 4 := (symCode x).isLt
    cases i with
    | zero =>
      rw [packSyms, pow_zero, Nat.div_one, List.getElem_cons_zero]
      omega
    | succ i =>
      have hrest : packSyms (x :: xs) / 4 = packSyms xs := by rw [packSyms]; omega
      rw [pow_succ', ← Nat.div_div_eq_div_mul, hrest, List.getElem_cons_succ]
      exact ih i (by simpa using hi)

/-- Symbol `i` stands in bits `2 i + 1` and `2 i` of the packed symbols. -/
theorem extract_packSyms {n w : Nat} (hw : w = 2 * n) (v : Vector Sym n) (i : Fin n) :
    (BitVec.ofNat w (packSyms v.toList)).extractLsb' (2 * i.val) 2 = symCode v[i] := by
  have hpow (k : Nat) : 2 ^ (2 * k) = 4 ^ k := by norm_num [pow_mul]
  have hfits : packSyms v.toList < 2 ^ w := by
    rw [hw, hpow]
    simpa using packSyms_lt v.toList
  apply BitVec.eq_of_toNat_eq
  rw [BitVec.extractLsb'_toNat, BitVec.toNat_ofNat, Nat.mod_eq_of_lt hfits, Nat.shiftRight_eq_div_pow, hpow]
  exact packSyms_digit v.toList i.val (by simp)

/-- Flag `i` is bit `i` of the packed flags. -/
theorem packFlags_testBit (fs : List Flag) (i : Nat) (hi : i < fs.length) :
    (packFlags fs).testBit i = flagBit fs[i] := by
  induction fs generalizing i with
  | nil => simp at hi
  | cons f fs ih =>
    have hbit : (flagBit f).toNat < 2 := Bool.toNat_lt _
    cases i with
    | zero => cases hf : flagBit f <;> simp [packFlags, Nat.testBit_zero, hf]
    | succ i =>
      have hrest : packFlags (f :: fs) / 2 = packFlags fs := by rw [packFlags]; omega
      rw [Nat.testBit_succ, hrest, List.getElem_cons_succ]
      exact ih i (by simpa using hi)

theorem packBits_getLsbD (v : Vector Flag 49) (i : Fin 49) : (packBits v).getLsbD i.val = flagBit v[i] := by
  have hbit : (packFlags v.toList).testBit i.val = flagBit v.toList[i.val] := packFlags_testBit v.toList i.val (by simp)
  rw [packBits, BitVec.getLsbD_ofNat, hbit]
  simp

/-- Settles O50: the codes by cases, and a field's symbol or flag as a digit of its packed number. -/
theorem packedLayout : Obligations.PackedLayout := by
  unfold Obligations.PackedLayout
  exact ⟨⟨rfl, rfl, rfl⟩, ⟨rfl, rfl⟩, ⟨rfl, rfl, rfl⟩, extract_packSyms rfl, extract_packSyms rfl, packBits_getLsbD,
    fun x => by cases x <;> decide, fun d => by cases d <;> decide⟩

/-! ## A string operand (R82) -/

/-- The character of a byte. -/
def charOf (b : Byte) : Char := Char.ofNat b.toNat

/-- A byte that stands for itself in a string operand: printable, and neither quote nor backslash (R82; log 16). -/
abbrev IsPlain (b : Byte) : Prop := 0x20 ≤ b.toNat ∧ b.toNat ≤ 0x7E ∧ b ≠ 0x22 ∧ b ≠ 0x5C

/-- The character of a plain byte is printable, and neither quote nor backslash. -/
theorem charOf_plain : ∀ b : Byte, IsPlain b →
    charOf b ≠ '"' ∧ charOf b ≠ '\\' ∧ printableByte (charOf b) = some b := by decide

/-- A printable character that is neither quote nor backslash stands for its byte. -/
theorem takeString_plain {c : Char} {b : Byte} {cs rest : List Char} {bs : List Byte} (hquote : c ≠ '"')
    (hslash : c ≠ '\\') (hb : printableByte c = some b) (hcs : takeString cs = some (bs, rest)) :
    takeString (c :: cs) = some (b :: bs, rest) := by
  rw [takeString]
  · simp [hb, hcs]
  · exact hquote
  · rintro h l cs' rfl
    exact absurd rfl hslash
  · rintro cs' rfl
    exact absurd rfl hslash

/-- The characters of plain bytes read as the bytes, up to the closing quote. -/
theorem takeString_charOf (p : List Byte) (hp : ∀ b ∈ p, IsPlain b) :
    takeString (p.map charOf ++ ['"']) = some (p, []) := by
  induction p with
  | nil => rfl
  | cons b p ih =>
    obtain ⟨hb, hp'⟩ := List.forall_mem_cons.1 hp
    obtain ⟨hquote, hslash, hbyte⟩ := charOf_plain b hb
    exact takeString_plain hquote hslash hbyte (ih hp')

/-- After the mnemonic `SET_ADDRESS` a line is its string operand. -/
theorem assembleLine_setAddress (cs : List Char) :
    assembleLine ("SET_ADDRESS ".toList ++ cs) = assembleStr .setAddress (' ' :: cs) := rfl

/-- Settles O51: the mnemonic, the two blanks, the bytes between the quotes, and the end of the line. -/
theorem assemblerReadsStrings : Obligations.AssemblerReadsStrings := by
  unfold Obligations.AssemblerReadsStrings
  intro p hp
  have hstring : takeString (p.map charOf ++ ['"']) = some (p, []) := takeString_charOf p hp
  calc assembleLine ("SET_ADDRESS  \"".toList ++ p.map (fun b => Char.ofNat b.toNat) ++ ['"'])
      = assembleLine ("SET_ADDRESS ".toList ++ (' ' :: '"' :: (p.map charOf ++ ['"']))) := rfl
    _ = assembleStr .setAddress (' ' :: ' ' :: '"' :: (p.map charOf ++ ['"'])) := assembleLine_setAddress _
    _ = some (.setAddress p) := by simp [assembleStr, skipBlanks, isBlankChar, hstring, atLineEnd]

end Sys2Proof.Machine
end

section
/-! The timed refinement (60_exceptions.md R186, R191; 70_reset_and_hazards.md R217, R222): the timer's step as an
expiry of the block, the deadlines, and the time that a single-frame session takes. -/

namespace Sys2Proof.Machine

/-! ## One untimed step on one input -/

/-- The block with no input to come. -/
def State.alone (s : State) : State := { s with inputs := [] }

/-- On the timer's event an armed block expires (R72, R161). -/
theorem stepOn_timer (s : State) : stepOn timerInput s = exec .timerExpire s.alone :=
  step_issue_of_ok rfl rfl rfl

/-- On the request `TRIGGER 1` the block starts in single-frame mode (R143). -/
theorem stepOn_send (s : State) : stepOn (arrivalInput (.request ⟨0x07, .int 1⟩)) s = start .single s.alone :=
  step_issue_of_ok rfl (decode_encode_of_wf (.trigger 1) rfl) rfl

/-- A step on any input keeps the invariants of the block. -/
theorem stepOn_keepsInv {i : Input} {s m : State} (h : s.Inv) (hm : stepOn i s = .next m) : m.Inv :=
  stepKeepsInvariant _ m (h.withInputs [i]) hm

/-! ## The timer's step in time (R191) -/

/-- The timed state after the pending expiry is handled. -/
noncomputable def Timed.fired (t : Timed Time) : Timed Time :=
  { t with
    machine := t.machine.alone.expire, now := handlingInstant t,
    deadline := rearmedDeadline t t.machine.alone.expire }

theorem fireTimer_of_armed {t : Timed Time} (ha : t.machine.tmrArmed = true) : fireTimer t = .next t.fired := by
  have hx : stepOn timerInput t.machine = .next t.machine.alone.expire :=
    (stepOn_timer t.machine).trans (exec_timerExpire_of_armed ha)
  rw [fireTimer, hx]
  rfl

theorem eq_fired_of_fireTimer {t u : Timed Time} (h : fireTimer t = .next u) :
    t.machine.tmrArmed = true ∧ u = t.fired := by
  obtain ⟨m, hm, -⟩ := fireTimer_next h
  have ha : t.machine.tmrArmed = true := (exec_timerExpire_iff_armed t.machine.alone).1 ⟨m, stepOn_timer t.machine ▸ hm⟩
  cases (fireTimer_of_armed ha).symm.trans h
  exact ⟨ha, rfl⟩

/-- A re-armed timer is due one armed duration after the deadline just handled. -/
theorem rearmedDeadline_of_armed (t : Timed Time) {m : State} (ha : m.tmrArmed = true) :
    rearmedDeadline t m = t.deadline + durUnits m.tmrDur • t.timing.tNarrow :=
  if_pos ha

theorem le_rearmedDeadline (t : Timed Time) (m : State) : t.deadline ≤ rearmedDeadline t m := by
  unfold rearmedDeadline
  split
  · exact le_self_add
  · exact le_rfl

/-- The handling of a deadline is not after the handling of the one it arms. -/
theorem handlingInstant_le_rearmed (t : Timed Time) (m : State) :
    handlingInstant t ≤ rearmedDeadline t m + t.timing.lStep := by
  unfold handlingInstant
  gcongr
  exact le_rearmedDeadline t m

/-- Every duration is at least one unit (R103). -/
theorem durUnits_pos (d : Dur) : 0 < durUnits d := by cases d <;> decide

/-- With the invariants, the expiry of a session leaves the block with them. -/
theorem Timed.fired_inv {t : Timed Time} (h : t.machine.Inv) (ha : t.machine.tmrArmed = true) : t.fired.machine.Inv :=
  (h.withInputs []).expire (h.busy_of_armed ha)

/-! ## The statements about one or two timed steps -/

/-- Settles O52: the three cases of a timed step, each with the untimed step in it. -/
theorem timedStepsAreUntimedSteps : Obligations.TimedStepsAreUntimedSteps := by
  unfold Obligations.TimedStepsAreUntimedSteps
  intro t u h
  obtain ⟨harr, ha, hx⟩ | ⟨ha, hx⟩ | ⟨instant, a, rest, harr, -, hx⟩ := timedStep_cases t
  · cases hx.symm.trans h
    exact .inl ⟨rfl, ha, harr⟩
  · obtain ⟨m, hm, rfl⟩ := fireTimer_next (hx.symm.trans h)
    exact .inr (.inl ⟨ha, rfl, hm⟩)
  · obtain ⟨m, hm, rfl⟩ := serveArrival_next (hx.symm.trans h)
    exact .inr (.inr ⟨(instant, a), harr, hm⟩)

/-- Settles O53: an arrival that is not late is served at its own instant, which the step compares with the handling. -/
theorem expiryGoesFirstAtATie : Obligations.ExpiryGoesFirstAtATie := by
  unfold Obligations.ExpiryGoesFirstAtATie
  intro t instant a rest ha hnow harr
  have hserved : serviceInstant t instant = instant := max_eq_right hnow
  refine ⟨fun hdue => ?_, fun hbefore => ?_⟩
  · simp [timedStep, harr, ha, hserved, handlingInstant, hdue]
  · simp [timedStep, harr, ha, hserved, handlingInstant, hbefore.not_ge]

/-- Settles O54: both handlings come L_STEP after their deadlines, and the deadlines are an interval apart. -/
theorem intervalsDoNotDrift : Obligations.IntervalsDoNotDrift := by
  unfold Obligations.IntervalsDoNotDrift
  intro t u w hinv hu hw
  obtain ⟨ha, rfl⟩ := eq_fired_of_fireTimer hu
  obtain ⟨ha', rfl⟩ := eq_fired_of_fireTimer hw
  have hinv' : t.fired.machine.Inv := Timed.fired_inv hinv ha
  rw [← hinv'.armedInterval (hinv'.busy_of_armed ha')]
  calc t.fired.deadline + t.timing.lStep
      = t.deadline + durUnits t.fired.machine.tmrDur • t.timing.tNarrow + t.timing.lStep := by
        rw [← rearmedDeadline_of_armed t ha']
        rfl
    _ = t.fired.now + durUnits t.fired.machine.tmrDur • t.timing.tNarrow := add_right_comm _ _ _

/-- Settles O56: an expiry is handled at the instant that the present has not passed, and its deadline moves on; an
arrival is served no earlier than the present, and before the handling of a deadline that stays pending. -/
theorem timedStepKeepsInvariant : Obligations.TimedStepKeepsInvariant := by
  unfold Obligations.TimedStepKeepsInvariant
  intro t u hinv h
  have ⟨hblock, hlegal, hpast⟩ := hinv
  obtain ⟨-, -, hx⟩ | ⟨ha, hx⟩ | ⟨instant, a, rest, -, hfirst, hx⟩ := timedStep_cases t
  · cases hx.symm.trans h
    exact ⟨hinv, rfl, le_rfl⟩
  · obtain ⟨m, hm, rfl⟩ := fireTimer_next (hx.symm.trans h)
    exact ⟨⟨stepOn_keepsInv hblock hm, hlegal, fun _ => handlingInstant_le_rearmed t m⟩, rfl, hpast ha⟩
  · obtain ⟨m, hm, rfl⟩ := serveArrival_next (hx.symm.trans h)
    refine ⟨⟨stepOn_keepsInv hblock hm, hlegal, fun harmed => ?_⟩, rfl, le_max_left _ _⟩
    cases ha : t.machine.tmrArmed with
    | true => simpa [startedDeadline, handlingInstant, ha] using (hfirst ha).le
    | false => simp [startedDeadline, ha, show m.tmrArmed = true from harmed, add_assoc]

/-- Settles O57: the handling takes less than one unit, and the interval armed is at least one. -/
theorem handlingEndsBeforeNextDeadline : Obligations.HandlingEndsBeforeNextDeadline := by
  unfold Obligations.HandlingEndsBeforeNextDeadline
  intro t u hlegal hu ha'
  obtain ⟨-, rfl⟩ := eq_fired_of_fireTimer hu
  have hstep : t.timing.lStep < durUnits t.fired.machine.tmrDur • t.timing.tNarrow :=
    hlegal.2.trans_le (le_self_nsmul zero_le (durUnits_pos _).ne')
  calc t.fired.now = t.deadline + t.timing.lStep := rfl
    _ < t.deadline + durUnits t.fired.machine.tmrDur • t.timing.tNarrow := by gcongr
    _ = t.fired.deadline := (rearmedDeadline_of_armed t ha').symm

/-! ## The units that a session has left (R107, R167) -/

/-- The units of the intervals of a pass after position `p`. -/
def unitsAfter (bits : Vector Flag 49) (p : Fin 50) : Nat :=
  (((List.finRange 50).drop (p.val + 1)).map fun q => durUnits (interval bits q)).sum

theorem unitsAfter_last (bits : Vector Flag 49) : unitsAfter bits 49 = 0 := rfl

theorem unitsAfter_of_next (bits : Vector Flag 49) {p q : Fin 50} (h : q.val = p.val + 1) :
    unitsAfter bits p = durUnits (interval bits q) + unitsAfter bits q := by
  rw [unitsAfter, ← h, finRange_drop, List.map_cons, List.sum_cons, unitsAfter]

/-- The first interval of a pass and those after it last 127 units (R107). -/
theorem unitsAfter_first (cw : Vector Sym 12) :
    durUnits (interval (encodeCodeword cw) 0) + unitsAfter (encodeCodeword cw) 0 = 127 := by
  have hfirst : List.finRange 50 = 0 :: (List.finRange 50).drop 1 := finRange_drop 0
  rw [← unitsOf_wave cw, unitsOf, wave, List.map_map, hfirst, List.map_cons, List.sum_cons]
  rfl

/-- The units that a single-frame session lasts after the present interval. -/
def State.unitsLeft (s : State) : Nat := 127 * (s.rem - 1) + unitsAfter s.bits s.pos

/-- The last interval has nothing after it. -/
theorem State.unitsLeft_of_last {s : State} (h : s.expiriesLeft = 1) : s.unitsLeft = 0 := by
  unfold State.expiriesLeft at h
  have hrem : s.rem - 1 = 0 := by omega
  have hpos : s.pos = 49 := Fin.ext (by simp; omega)
  rw [State.unitsLeft, hrem, hpos, unitsAfter_last]

/-- The interval armed next is the first of those left. -/
theorem State.RunsSingle.unitsLeft_expire {s : State} (h : s.RunsSingle) (h' : s.expire.RunsSingle) :
    s.unitsLeft = durUnits s.expire.tmrDur + s.expire.unitsLeft := by
  obtain ⟨-, hbits, -⟩ := s.expire_sameWaveform
  obtain ⟨hlast, hnext⟩ := s.expire_pos
  rw [h'.inv.armedInterval h'.busy, State.unitsLeft, State.unitsLeft, hbits]
  by_cases hpos : s.pos = 49
  · have hrem : s.expire.rem = s.rem - 1 := State.expire_last_rem (congrArg Fin.val hpos) h.mode
    obtain ⟨hmin, -⟩ := h'.inv.singleRem h'.busy h'.mode
    have hpass := unitsAfter_first s.codeword
    rw [← h.inv.bitsCurrent h.busy] at hpass
    rw [hlast hpos, hpos, unitsAfter_last]
    omega
  · obtain ⟨-, hrem, -⟩ := State.expire_within hpos
    rw [hrem, unitsAfter_of_next s.bits (hnext hpos)]
    omega

/-- An accepted SEND has 127 units a pass before it, with the interval that it arms. -/
theorem State.Inv.begin_single_units {s : State} (h : s.Inv) :
    durUnits ((s.beginSession .single).respond .ok []).tmrDur + ((s.beginSession .single).respond .ok []).unitsLeft =
      127 * s.params.nSingle := by
  obtain ⟨hruns, -⟩ := h.begin_single
  have hmin : 1 ≤ s.params.nSingle := h.legal.1
  have hpass := unitsAfter_first s.codeword
  have hleft : ((s.beginSession .single).respond .ok []).unitsLeft =
      127 * (s.params.nSingle - 1) + unitsAfter (encodeCodeword s.codeword) 0 := by
    rw [s.beginSession_eq]
    rfl
  have hdur : ((s.beginSession .single).respond .ok []).tmrDur = interval (encodeCodeword s.codeword) 0 :=
    hruns.inv.armedInterval hruns.busy
  rw [hleft, hdur]
  omega

/-! ## A single-frame session in time (R167, R191, R222) -/

theorem timedRun_succ {t t' : Timed Time} (h : timedStep t = .next t') (k : Nat) :
    timedRun (k + 1) t = timedRun k t' := by
  rw [timedRun, h]

/-- With no arrival to come an armed timer is next. -/
theorem timedStep_of_no_arrival {t : Timed Time} (harr : t.arrivals = []) (ha : t.machine.tmrArmed = true) :
    timedStep t = .next t.fired := by
  rw [← fireTimer_of_armed ha]
  simp [timedStep, harr, ha]

/-- With the timer disarmed the first arrival is next. -/
theorem timedStep_of_disarmed {t : Timed Time} {instant : Time} {a : Arrival} {rest : List (Time × Arrival)}
    (harr : t.arrivals = (instant, a) :: rest) (ha : t.machine.tmrArmed = false) :
    timedStep t = serveArrival t instant a rest := by
  simp [timedStep, harr, ha]

/-- Undisturbed, a single-frame session ends when its intervals have passed, counted from deadline to deadline, and the
last expiry is handled. -/
theorem timedRun_of_runsSingle {t : Timed Time} (h : t.machine.RunsSingle) (harr : t.arrivals = []) :
    ∃ u, timedRun t.machine.expiriesLeft t = .next u ∧ u.machine.Idle ∧ u.arrivals = [] ∧
      u.now = t.deadline + t.machine.unitsLeft • t.timing.tNarrow + t.timing.lStep := by
  induction hn : t.machine.expiriesLeft generalizing t with
  | zero => exact absurd hn t.machine.expiriesLeft_pos.ne'
  | succ n ih =>
    have halone : t.machine.alone.RunsSingle := ⟨h.inv.withInputs [], h.busy, h.mode⟩
    rw [timedRun_succ (timedStep_of_no_arrival harr h.armed)]
    obtain ⟨hlast, hidle⟩ | ⟨hruns, hleft⟩ := halone.expire
    · have hzero : t.machine.unitsLeft = 0 := State.unitsLeft_of_last hlast
      obtain rfl : n = 0 := by
        have := hn.symm.trans hlast
        omega
      refine ⟨t.fired, rfl, hidle, harr, ?_⟩
      rw [hzero, zero_nsmul, add_zero]
      rfl
    · have hfewer : t.fired.machine.expiriesLeft = n := Nat.succ.inj (hleft.symm.trans hn)
      obtain ⟨u, hrun, hidle, harr', hnow⟩ := ih (t := t.fired) hruns harr hfewer
      refine ⟨u, hrun, hidle, harr', hnow.trans ?_⟩
      have hunits : t.machine.unitsLeft = durUnits t.fired.machine.tmrDur + t.fired.machine.unitsLeft :=
        halone.unitsLeft_expire hruns
      have hdeadline : t.fired.deadline = t.deadline + durUnits t.fired.machine.tmrDur • t.timing.tNarrow :=
        rearmedDeadline_of_armed t hruns.armed
      rw [hdeadline, hunits, add_nsmul, ← add_assoc]
      rfl

/-- The block after an accepted SEND that is the only input. -/
def State.sent (s : State) : State := (s.alone.beginSession .single).respond .ok []

/-- A SEND that is the one arrival at an Idle block is served at its instant, and arms the first interval from it. -/
theorem timedStep_of_send {t : Timed Time} {t0 : Time} (hinv : t.machine.Inv) (hb : t.machine.busy = false)
    (hnow : t.now ≤ t0) (harr : t.arrivals = [(t0, .request ⟨0x07, .int 1⟩)]) :
    timedStep t = .next { t with
      machine := t.machine.sent, now := t0,
      deadline := t0 + durUnits t.machine.sent.tmrDur • t.timing.tNarrow, arrivals := [] } := by
  have ha : t.machine.tmrArmed = false := hinv.guardIsTimer.symm.trans hb
  have hserved : serviceInstant t t0 = t0 := max_eq_right hnow
  have hx : stepOn (arrivalInput (.request ⟨0x07, .int 1⟩)) t.machine = .next t.machine.sent :=
    (stepOn_send t.machine).trans (start_of_idle .single hb)
  have harmed : t.machine.sent.tmrArmed = true := rfl
  rw [timedStep_of_disarmed harr ha, serveArrival, hx, hserved]
  simp [startedDeadline, ha, harmed, durTime]

/-- Settles O55: the SEND is one step, and the session it begins has 50 expiries and 127 units for each pass, the first
interval among them. -/
theorem singleFrameSessionTakes127UnitsAPass : Obligations.SingleFrameSessionTakes127UnitsAPass := by
  unfold Obligations.SingleFrameSessionTakes127UnitsAPass
  intro t t0 hinv hb hnow harr
  have halone : t.machine.alone.Inv := hinv.withInputs []
  obtain ⟨hruns, hleft⟩ := halone.begin_single
  have hunits : durUnits t.machine.sent.tmrDur + t.machine.sent.unitsLeft = 127 * t.machine.params.nSingle :=
    halone.begin_single_units
  rw [add_comm 1, timedRun_succ (timedStep_of_send hinv hb hnow harr)]
  obtain ⟨u, hrun, hidle, harr', hend⟩ := timedRun_of_runsSingle
    (t := { t with
      machine := t.machine.sent, now := t0,
      deadline := t0 + durUnits t.machine.sent.tmrDur • t.timing.tNarrow, arrivals := [] }) hruns rfl
  refine ⟨u, hleft ▸ hrun, hidle, harr', hend.trans ?_⟩
  rw [← hunits, add_nsmul, ← add_assoc]

end Sys2Proof.Machine
end
